-- ==== Sys2Proof/Word.lean ====
section
/-! DEFINITION. The widths of I2SMR's words (00_scope.md R8; 10_state.md R20; 20_memory.md R61; 30_encoding.md R80). -/

namespace Sys2Proof

/-- One input of the block, `EW = {CW, OP}`, 48 bits (R80). -/
abbrev EventWord := BitVec 48

/-- `CW = EW[47:32]` (R80). -/
abbrev CommandWord := BitVec 16

/-- A sample word, `WORD_W` = 32 bits (R8). -/
abbrev Word := BitVec 32

/-- A callback handle, `HANDLE_W` = 32 bits (R8). -/
abbrev Handle := BitVec 32

/-- The status word `StatusRead()` returns, `SR_W` = 32 bits (R8, R62). -/
abbrev Status := BitVec 32

/-- A clock descriptor `CD[d]` or a frame descriptor `FD[d]`, 16 bits (R20). -/
abbrev Descriptor := BitVec 16

/-- A pin-claim mask: bit 0 `DATA`, bit 1 `CLK`, bit 2 `FS` (R66). -/
abbrev PinMask := BitVec 3

/-- Bits-per-channel as the command carries it, `BPC_W` = 8 bits (R8, R82). -/
abbrev BitsPerChannel := BitVec 8

end Sys2Proof
end

