-- ==== Sys2Proof/Config.lean ====
section
/-! DEFINITION. What an implementation of I2SMR fixes (00_scope.md R8, R9) and the free values: what the spec leaves open. -/

namespace Sys2Proof

/-- A clock edge: of the bit clock (`TX_EDGE`, `CKI`) or of the frame clock (`EDGE`). -/
inductive Edge where
  | falling
  | rising
deriving DecidableEq, Repr

/-- The parameters R8 marks OPEN, which "a model takes ... as arguments". The host's form of the step has no further
argument, so they stand in `State.params`, which no step writes: a statement over every state is a statement over every
value of them (notes/assumptions/6.md). -/
structure Params where
  /-- bit index of the transmit-ready bit in the status word -/
  srTxRdy : Fin 32
  /-- bit index of the receive-ready bit -/
  srRxRdy : Fin 32
  /-- bit index of the transmit-frame-sync bit -/
  srTxSyn : Fin 32
  /-- bit index of the receive-frame-sync bit -/
  srRxSyn : Fin 32
  /-- the bit-clock edge on which transmit drives data -/
  txEdge : Edge
deriving DecidableEq, Repr

/-- The defaults of R8 (decisions D7, D9). PRESUMED: the spec itself marks them as general knowledge; unsafe for a statement
that fixes them (notes/assumptions/6.md). -/
def Params.default : Params :=
  { srTxRdy := 0, srRxRdy := 4, srTxSyn := 10, srRxSyn := 11, txEdge := .falling }

/-- R9: the four bit indices are pairwise distinct (that each lies in 0..31 is in their type). -/
def Params.distinct (p : Params) : Bool :=
  [p.srTxRdy, p.srRxRdy, p.srTxSyn, p.srRxSyn].Nodup

/-- `NULL_HANDLE` (R8): the handle value that means "no callback registered". -/
def Config.nullHandle : Handle := 0#32

/-- FREE VALUE: the 5-bit `DATLEN` of a configure command whose bits-per-channel lies outside 1..32 (40_mode_resolver.md R108,
U1), the `n`-th drawn. Safe: nothing constrains it (notes/assumptions/7.md). -/
opaque Config.freeDatlen : Nat → BitVec 5

/-- FREE VALUE: the word `RxDataRead()` returns when the environment has given none (20_memory.md R64, U3), the `n`-th
drawn. Safe: nothing constrains it (notes/assumptions/8.md). -/
opaque Config.freeRxWord : Nat → Word

end Sys2Proof
end

