-- ==== Sys2Proof/Syntax.lean ====
section
/-! DEFINITION. The eight event words of I2SMR as syntax (30_encoding.md R81, R88; 00_scope.md R2). -/

namespace Sys2Proof

/-- A direction (R14). -/
inductive Dir where
  | tx
  | rx
deriving DecidableEq, Repr

/-- The audio mode of a configure command (R14, R82). -/
inductive AudioMode where
  | monoLeft
  | monoRight
  | stereo
deriving DecidableEq, Repr

/-- The clock mode of a configure command (R14, R82): this direction's own clock pins, or the other direction's clock. -/
inductive ClockMode where
  | external
  | shared
deriving DecidableEq, Repr

/-- One constructor per row of spec/opcode_table.json. -/
inductive Instr where
  /-- `CFGTX am, cm, bpc` (R100) -/
  | cfgtx (am : AudioMode) (cm : ClockMode) (bpc : BitsPerChannel)
  /-- `CFGRX am, cm, bpc` (R101) -/
  | cfgrx (am : AudioMode) (cm : ClockMode) (bpc : BitsPerChannel)
  /-- `SETEN dir, b` (R130) -/
  | seten (dir : Dir) (enb : Bool)
  /-- `SETCB dir, h` (R132) -/
  | setcb (dir : Dir) (h : Handle)
  /-- `WRSMP w` (R140) -/
  | wrsmp (w : Word)
  /-- `RDSMP` (R141) -/
  | rdsmp
  /-- `IRQ s` (R152) -/
  | irq (st : Status)
  /-- `RET` (R153) -/
  | ret
deriving DecidableEq, Repr

end Sys2Proof
end

