-- ==== Sys2Proof/WellFormed.lean ====
section
/-! DEFINITION. Which event words have a meaning (30_encoding.md R89). Every term of `Instr` is well formed, because each
operand's type holds exactly the values R88 admits; what can be ill formed is an event word. The checks are written from
the match and mask values of R82 to R87, apart from the decoder. -/

namespace Sys2Proof

/-- `CW = EW[47:32]` (R80). -/
def WellFormed.command (ew : EventWord) : CommandWord := ew.extractLsb' 32 16

/-- `CW` with all but the opcode cleared. -/
def WellFormed.opcodeBits (ew : EventWord) : CommandWord := WellFormed.command ew &&& 0xF000#16

/-- The opcode is one of 0x1 to 0x8 (R81, R89). -/
def WellFormed.opcodeKnown (ew : EventWord) : Bool :=
  (0x1000#16).ule (WellFormed.opcodeBits ew) && (WellFormed.opcodeBits ew).ule 0x8000#16

/-- The opcode is `CFGTX`'s or `CFGRX`'s. -/
def WellFormed.isConfigure (ew : EventWord) : Bool :=
  WellFormed.opcodeBits ew == 0x1000#16 || WellFormed.opcodeBits ew == 0x2000#16

/-- The bits of `CW` below the opcode that the word's format requires to be 0: what the masks 0xF100, 0xF3FF, 0xF7FF and
0xFFFF of R82 to R87 hold beside the opcode. -/
def WellFormed.zeroMask (ew : EventWord) : CommandWord :=
  if WellFormed.isConfigure ew then 0x0100#16
  else if WellFormed.opcodeBits ew = 0x3000#16 then 0x03FF#16
  else if WellFormed.opcodeBits ew = 0x4000#16 then 0x07FF#16
  else 0x0FFF#16

/-- Every must-be-zero bit of the word's format is 0 (R89). -/
def WellFormed.zerosKept (ew : EventWord) : Bool :=
  WellFormed.command ew &&& WellFormed.zeroMask ew == 0#16

/-- A configure word does not carry audio mode 3 (R82, R89). -/
def WellFormed.audioModeLegal (ew : EventWord) : Bool :=
  !(WellFormed.isConfigure ew && WellFormed.command ew &&& 0x0C00#16 == 0x0C00#16)

/-- The event word is not reserved (R89). -/
def WellFormed.eventWord (ew : EventWord) : Bool :=
  WellFormed.opcodeKnown ew && WellFormed.zerosKept ew && WellFormed.audioModeLegal ew

end Sys2Proof
end

