-- ==== Sys2Proof/Decode.lean ====
section
/-! DEFINITION. The decoder and the encoder of event words (30_encoding.md R80 to R89). The decoder is total on 48-bit words
and rejects a reserved word by the reason R89 names. -/

namespace Sys2Proof

/-- Why an event word is reserved: the three cases of R89. -/
inductive Reserved where
  /-- opcode 0x0 or 0x9 to 0xF -/
  | opcode
  /-- a must-be-zero bit of the format is 1 -/
  | mustBeZero
  /-- a configure word with `AM = 3` -/
  | audioMode
deriving DecidableEq, Repr

/-- What the decoder reads. -/
inductive Decoded where
  | instr (i : Instr)
  | reserved (why : Reserved)
deriving DecidableEq, Repr

/-! ## Fields (R80 to R87) -/

/-- `CW = EW[47:32]`. -/
def commandOf (ew : EventWord) : CommandWord := ew.extractLsb' 32 16

/-- `OP = EW[31:0]`. -/
def operandOf (ew : EventWord) : BitVec 32 := ew.extractLsb' 0 32

/-- `CW[15:12]` (R81). -/
def opcodeOf (ew : EventWord) : BitVec 4 := (commandOf ew).extractLsb' 12 4

/-! ## Codes of the enumerations (R82, R83, decision D3) -/

def audioModeOfCode (c : BitVec 2) : Option AudioMode :=
  match c with
  | 0#2 => some .monoLeft
  | 1#2 => some .monoRight
  | 2#2 => some .stereo
  | _ => none

def AudioMode.code (am : AudioMode) : BitVec 2 :=
  match am with
  | .monoLeft => 0#2
  | .monoRight => 1#2
  | .stereo => 2#2

def clockModeOfBit (b : Bool) : ClockMode := if b then .shared else .external

def ClockMode.code (cm : ClockMode) : BitVec 1 :=
  match cm with
  | .external => 0#1
  | .shared => 1#1

def dirOfBit (b : Bool) : Dir := if b then .rx else .tx

def Dir.code (d : Dir) : BitVec 1 :=
  match d with
  | .tx => 0#1
  | .rx => 1#1

/-! ## The decoder -/

/-- `i`, if the bits of `CW` under `mask` are 0 (R89). -/
def requireZero (mask : CommandWord) (ew : EventWord) (i : Instr) : Decoded :=
  if commandOf ew &&& mask = 0#16 then .instr i else .reserved .mustBeZero

/-- Format CFG (R82); `mk` is the configure command of the opcode. -/
def decodeConfigure (mk : AudioMode → ClockMode → BitsPerChannel → Instr) (ew : EventWord) : Decoded :=
  let cw := commandOf ew
  match audioModeOfCode (cw.extractLsb' 10 2) with
  | none => .reserved .audioMode
  | some am => requireZero 0x0100#16 ew (mk am (clockModeOfBit (cw.getLsbD 9)) (cw.extractLsb' 0 8))

/-- The instruction an event word stands for, or why it is reserved (R81 to R89). -/
def decode (ew : EventWord) : Decoded :=
  match opcodeOf ew with
  | 0x1#4 => decodeConfigure .cfgtx ew
  | 0x2#4 => decodeConfigure .cfgrx ew
  | 0x3#4 => requireZero 0x03FF#16 ew
      (.seten (dirOfBit ((commandOf ew).getLsbD 11)) ((commandOf ew).getLsbD 10))
  | 0x4#4 => requireZero 0x07FF#16 ew (.setcb (dirOfBit ((commandOf ew).getLsbD 11)) (operandOf ew))
  | 0x5#4 => requireZero 0x0FFF#16 ew (.wrsmp (operandOf ew))
  | 0x6#4 => requireZero 0x0FFF#16 ew .rdsmp
  | 0x7#4 => requireZero 0x0FFF#16 ew (.irq (operandOf ew))
  | 0x8#4 => requireZero 0x0FFF#16 ew .ret
  | _ => .reserved .opcode

/-! ## The encoder -/

/-- The command word of an instruction (R82 to R87). -/
def encodeCommand (i : Instr) : CommandWord :=
  match i with
  | .cfgtx am cm bpc => 0x1#4 ++ am.code ++ cm.code ++ 0#1 ++ bpc
  | .cfgrx am cm bpc => 0x2#4 ++ am.code ++ cm.code ++ 0#1 ++ bpc
  | .seten d b => 0x3#4 ++ d.code ++ BitVec.ofBool b ++ 0#10
  | .setcb d _ => 0x4#4 ++ d.code ++ 0#11
  | .wrsmp _ => 0x5000#16
  | .rdsmp => 0x6000#16
  | .irq _ => 0x7000#16
  | .ret => 0x8000#16

/-- The operand of an instruction; 0 where the format ignores it (R82, R83, R86). -/
def encodeOperand (i : Instr) : BitVec 32 :=
  match i with
  | .setcb _ h => h
  | .wrsmp w => w
  | .irq st => st
  | _ => 0#32

/-- The event word of an instruction, `{CW, OP}` (R80). -/
def encode (i : Instr) : EventWord := encodeCommand i ++ encodeOperand i

/-- The bits of the event word that the instruction's format does not ignore: all of `CW`, and `OP` where it is an operand
(R82 to R87). -/
def significantBits (i : Instr) : EventWord :=
  match i with
  | .setcb _ _ | .wrsmp _ | .irq _ => 0xFFFFFFFFFFFF#48
  | _ => 0xFFFF00000000#48

/-! ## Words as the opcode table numbers them -/

/-- The event word whose bits the opcode table numbers as `w`: bits 15..0 are `CW` (the table's match and mask are on `CW`),
the bits above them are `OP` from its bit 0 on, and every bit from `nbits` on is 0. DESIGN CHOICE, safe
(notes/assumptions/18.md). -/
def tableWord (nbits w : Nat) : EventWord :=
  let v := w % 2 ^ min nbits 48
  BitVec.ofNat 16 v ++ BitVec.ofNat 32 (v / 2 ^ 16)

/-- The instruction the decoder reads from a word numbered as spec/opcode_table.json numbers it. -/
def decodeTableWord (nbits w : Nat) : Option Instr :=
  match decode (tableWord nbits w) with
  | .instr i => some i
  | .reserved _ => none

end Sys2Proof
end

