-- ==== Sys2Proof/Machine/State.lean ====
section
/-! DEFINITION. The state of I2SMR (10_state.md), the events that enter and leave it, and why a step can stop. -/

namespace Sys2Proof.Machine

/-- The service phase `SVC` (R40). Code 3 is never produced and has no name here (U7; notes/assumptions/14.md). -/
inductive Svc where
  /-- 0 `IDLE`: no service in progress, the host is in main context -/
  | idle
  /-- 1 `TX_CALL`: the transmit-ready callback has been called and has not returned -/
  | txCall
  /-- 2 `RX_CALL`: the receive-ready callback has been called and has not returned -/
  | rxCall
deriving DecidableEq, Repr

/-- ChannelIdentity (R14, R67). -/
inductive Channel where
  | ch1
  | ch2
deriving DecidableEq, Repr

/-- The output events (20_memory.md R62 to R67) and the response of `RDSMP` (R11). -/
inductive OutEvent where
  /-- one read of the frame engine's status register (R62) -/
  | statusRead
  /-- one write of the transmit data register (R63) -/
  | txDataWrite (w : Word)
  /-- one read of the receive data register (R64) -/
  | rxDataRead
  /-- the word returned to the host as the result of the command (R11, R86) -/
  | respond (w : Word)
  /-- descriptors handed to the register-commit step (R65) -/
  | commit (d : Dir) (cd fd : Descriptor)
  /-- pins handed to the pin multiplexer (R66) -/
  | pinMux (d : Dir) (mask : PinMask)
  /-- callback `h` of direction `d` invoked with channel identity `ch` (R67) -/
  | call (d : Dir) (h : Handle) (ch : Channel)
deriving DecidableEq, Repr

/-- What arrives at the block: an event word on one of its three ports (R80), or the reset pin (R190). The port is not kept:
a word is taken as arriving on the port R80 gives its opcode. DESIGN CHOICE: R90 names a word on the wrong port and gives no
outcome; unsafe for claims about such a word (notes/assumptions/22.md). -/
inductive Input where
  | word (ew : EventWord)
  | resetPin
deriving DecidableEq, Repr

/-- The registers of one direction (R20). -/
structure DirRegs where
  /-- the clock descriptor `CD[d]` (R23) -/
  cd : Descriptor
  /-- the frame descriptor `FD[d]` (R30) -/
  fd : Descriptor
  /-- the descriptor-valid flag `CFGV[d]` (R35) -/
  cfgv : Bool
  /-- the ready-interrupt enable `IEN[d]` (R36) -/
  ien : Bool
  /-- the data-path enable `EN[d]` (R37) -/
  en : Bool
  /-- the callback handle `CB[d]` (R38) -/
  cb : Handle
deriving DecidableEq, Repr

/-- One direction after reset (R44). `CD` and `FD` are 0: DESIGN CHOICE, the spec gives no value; unsafe
(notes/assumptions/1.md). -/
def DirRegs.reset : DirRegs :=
  { cd := 0#16, fd := 0#16, cfgv := false, ien := false, en := false, cb := Config.nullHandle }

/-- The state: the registers of R20, then the model's own fields. -/
structure State where
  /-- the registers of the transmit direction -/
  tx : DirRegs
  /-- the registers of the receive direction -/
  rx : DirRegs
  /-- the status word latched by the current service, `SLATCH` (R39) -/
  slatch : Status
  /-- the service phase `SVC` (R40) -/
  svc : Svc
  /-- the model's own: the OPEN parameters of R8, written by no step (notes/assumptions/6.md) -/
  params : Params
  /-- the model's own: inputs that have arrived and have not been accepted, oldest first (notes/assumptions/3.md) -/
  inbox : List Input
  /-- the model's own: the words the frame engine will answer `RxDataRead` with, in order (notes/assumptions/8.md) -/
  rxAnswers : List Word
  /-- the model's own: the output events emitted so far, oldest first (notes/assumptions/5.md) -/
  out : List OutEvent
  /-- the model's own: how many free values have been drawn (notes/assumptions/9.md) -/
  draws : Nat
deriving DecidableEq, Repr

/-- The machine right after reset (R44, R190). `SLATCH` is 0: DESIGN CHOICE, the spec gives no value; unsafe
(notes/assumptions/2.md). -/
def State.reset : State :=
  { tx := DirRegs.reset
    rx := DirRegs.reset
    slatch := 0#32
    svc := .idle
    params := Params.default
    inbox := []
    rxAnswers := []
    out := []
    draws := 0 }

/-- I2SMR raises no fault and reports no error (R18, R170): the type has no constructor (notes/assumptions/19.md). -/
inductive Fault where
deriving DecidableEq, Repr

/-- Why a step gives no next state. -/
inductive Refusal where
  /-- raised by `exec` for an instruction that has no meaning yet (none is left); safe -/
  | notModelled (mnemonic : String)
  /-- raised by `step` for an event word that R89 calls reserved and gives no meaning (U8: "refuse"); safe -/
  | reservedEventWord (why : Reserved)
  /-- raised by `RET` while `SVC = IDLE`, which R180 says corresponds to no call and is refused by a model (U8); safe -/
  | retWhileIdle
deriving DecidableEq, Repr

end Sys2Proof.Machine
end

