-- ==== Sys2Proof/Machine/Flags.lean ====
section
/-! DEFINITION. The four status bits and the frame event classifier (43_service.md R150; 10_state.md R41). The block keeps no
flag of its own. -/

namespace Sys2Proof.Machine

/-- The ready bit of a direction in a status word (R87, R150). -/
def readyBit (p : Params) (st : Status) (d : Dir) : Bool :=
  match d with
  | .tx => st.getLsbD p.srTxRdy
  | .rx => st.getLsbD p.srRxRdy

/-- The frame-sync bit of a direction in a status word (R87, R150). -/
def syncBit (p : Params) (st : Status) (d : Dir) : Bool :=
  match d with
  | .tx => st.getLsbD p.srTxSyn
  | .rx => st.getLsbD p.srRxSyn

/-- `Classify(S, d)` (R150). -/
def classify (p : Params) (st : Status) (d : Dir) : Option Channel :=
  if readyBit p st d then
    if syncBit p st d then some .ch1 else some .ch2
  else none

end Sys2Proof.Machine
end

