-- ==== Sys2Proof/Machine/Operands.lean ====
section
/-! DEFINITION. The mode resolver's operand forms: the fields of the two descriptors (10_state.md R23, R30) and the pure
function `Resolve` (40_mode_resolver.md R102 to R110). -/

namespace Sys2Proof.Machine

/-! ## Codes -/

/-- `other(d)` (R11). -/
def other (d : Dir) : Dir :=
  match d with
  | .tx => .rx
  | .rx => .tx

/-- 0 `FALLING`, 1 `RISING` (R23). -/
def edgeCode (e : Edge) : BitVec 1 :=
  match e with
  | .falling => 0#1
  | .rising => 1#1

/-- `opposite` (R106). -/
def opposite (e : Edge) : Edge :=
  match e with
  | .falling => .rising
  | .rising => .falling

/-- 0 `CH1`, 1 `CH2` (R67, R150). -/
def channelCode (c : Channel) : BitVec 1 :=
  match c with
  | .ch1 => 0#1
  | .ch2 => 1#1

/-- 0 `IDLE`, 1 `TX_CALL`, 2 `RX_CALL` (R40). -/
def svcCode (p : Svc) : BitVec 2 :=
  match p with
  | .idle => 0#2
  | .txCall => 1#2
  | .rxCall => 2#2

/-! ## The fields of `CD[d]` (R23) -/

def cdCks (cd : Descriptor) : BitVec 1 := cd.extractLsb' 0 1
def cdStart (cd : Descriptor) : BitVec 2 := cd.extractLsb' 1 2
def cdEdge (cd : Descriptor) : BitVec 1 := cd.extractLsb' 3 1
def cdCki (cd : Descriptor) : BitVec 1 := cd.extractLsb' 4 1
def cdCko (cd : Descriptor) : BitVec 1 := cd.extractLsb' 5 1
def cdReserved (cd : Descriptor) : BitVec 2 := cd.extractLsb' 6 2
def cdSttdly (cd : Descriptor) : BitVec 8 := cd.extractLsb' 8 8

/-- `{sttdly[7:0], 0b00, cko, cki, edge, start[1:0], cks}` (R102). -/
def packCd (sttdly : BitVec 8) (cko cki edge : BitVec 1) (start : BitVec 2) (cks : BitVec 1) : Descriptor :=
  sttdly ++ 0#2 ++ cko ++ cki ++ edge ++ start ++ cks

/-! ## The fields of `FD[d]` (R30) -/

def fdDatlen (fd : Descriptor) : BitVec 5 := fd.extractLsb' 0 5
def fdMsbf (fd : Descriptor) : BitVec 1 := fd.extractLsb' 5 1
def fdNslot (fd : Descriptor) : BitVec 2 := fd.extractLsb' 6 2
def fdFsos (fd : Descriptor) : BitVec 1 := fd.extractLsb' 8 1
def fdReserved (fd : Descriptor) : BitVec 7 := fd.extractLsb' 9 7

/-- `{0b0000000, fsos, nslot[1:0], msbf, datlen[4:0]}` (R102). -/
def packFd (fsos : BitVec 1) (nslot : BitVec 2) (msbf : BitVec 1) (datlen : BitVec 5) : Descriptor :=
  0#7 ++ fsos ++ nslot ++ msbf ++ datlen

/-! ## The resolver -/

/-- The code of `CKS`: 0 `OWN_PINS`, 1 `OTHER_DIR` (R24, R103). -/
def clockSource (cm : ClockMode) : BitVec 1 :=
  match cm with
  | .external => 0#1
  | .shared => 1#1

/-- The frame-clock edge that marks channel-1's slot (R104). -/
def startEdge (am : AudioMode) : Edge :=
  match am with
  | .monoRight => .rising
  | .monoLeft | .stereo => .falling

/-- The code of `START`: 0 `FRAME_FALLING`, 1 `FRAME_RISING`, 2 `ON_OTHER_START` (R25, R105). -/
def startTrigger (am : AudioMode) (cm : ClockMode) : BitVec 2 :=
  match cm, startEdge am with
  | .shared, _ => 2#2
  | .external, .falling => 0#2
  | .external, .rising => 1#2

/-- The bit-clock edge active for the direction's data: transmit drives on `TX_EDGE`, receive samples on the opposite
(R27, R106). -/
def clockPolarity (txEdge : Edge) (d : Dir) : Edge :=
  match d with
  | .tx => txEdge
  | .rx => opposite txEdge

/-- The channel count per frame (R33, R109). -/
def slotCount (am : AudioMode) : BitVec 2 :=
  match am with
  | .stereo => 2#2
  | .monoLeft | .monoRight => 1#2

/-- The pin-claim mask (R110). -/
def pinMask (cm : ClockMode) : PinMask :=
  match cm with
  | .shared => 0b001#3
  | .external => 0b111#3

/-- Bits-per-channel lies in the defined range 1..32 (R108, conflict C3). -/
def bpcDefined (bpc : BitsPerChannel) : Bool := decide (1 ≤ bpc.toNat) && decide (bpc.toNat ≤ 32)

/-- `DATLEN`: bits-per-channel minus 1 in the defined range, and the unspecified value `free` outside it (R31, R108). -/
def frameLength (free : BitVec 5) (bpc : BitsPerChannel) : BitVec 5 :=
  if bpcDefined bpc then BitVec.ofNat 5 (bpc.toNat - 1) else free

/-- What `Resolve` returns (R102). -/
structure Resolved where
  cd : Descriptor
  fd : Descriptor
  mask : PinMask
deriving DecidableEq, Repr

/-- `Resolve` (R102), with `CKO = 0`, `STTDLY = 1`, `MSBF = 1`, `FSOS = 0` for every argument (R107); `free` is what
`DATLEN` is where R108 leaves it unspecified. -/
def resolve (txEdge : Edge) (free : BitVec 5) (d : Dir) (am : AudioMode) (cm : ClockMode) (bpc : BitsPerChannel) :
    Resolved :=
  { cd := packCd 1#8 0#1 (edgeCode (clockPolarity txEdge d)) (edgeCode (startEdge am)) (startTrigger am cm)
      (clockSource cm)
    fd := packFd 0#1 (slotCount am) 1#1 (frameLength free bpc)
    mask := pinMask cm }

end Sys2Proof.Machine
end

