-- ==== Sys2Proof/Machine/Ops.lean ====
section
/-! DEFINITION. The named operations over the state: register access, the ports to the frame engine (20_memory.md R62 to R67),
one configure command, one service's entry, steps and return (43_service.md, 60_exceptions.md), the reset pin, and which
input the block accepts next. -/

namespace Sys2Proof.Machine

/-! ## Registers -/

/-- The registers of direction `d`. -/
def State.regs (s : State) (d : Dir) : DirRegs :=
  match d with
  | .tx => s.tx
  | .rx => s.rx

/-- Write the registers of direction `d`. -/
def State.setRegs (s : State) (d : Dir) (r : DirRegs) : State :=
  match d with
  | .tx => { s with tx := r }
  | .rx => { s with rx := r }

/-- `EN[d] <- b` (R130). -/
def State.setEn (s : State) (d : Dir) (b : Bool) : State :=
  s.setRegs d { s.regs d with en := b }

/-- `CB[d] <- h` (R132). -/
def State.setCb (s : State) (d : Dir) (h : Handle) : State :=
  s.setRegs d { s.regs d with cb := h }

/-- `CD[d] <- cd`, `FD[d] <- fd`, `CFGV[d] <- 1` (R100). -/
def State.setDescriptors (s : State) (d : Dir) (cd fd : Descriptor) : State :=
  s.setRegs d { s.regs d with cd := cd, fd := fd, cfgv := true }

/-- `IEN[d] <- 1` (R100). -/
def State.enableReady (s : State) (d : Dir) : State :=
  s.setRegs d { s.regs d with ien := true }

/-- The level outputs of one direction (R43). -/
structure Levels where
  cd : Descriptor
  fd : Descriptor
  cfgv : Bool
  ien : Bool
  en : Bool
deriving DecidableEq, Repr

/-- What the frame engine's side continuously sees of direction `d` (R43): neither `CB`, `SLATCH` nor `SVC`. -/
def State.levels (s : State) (d : Dir) : Levels :=
  { cd := (s.regs d).cd, fd := (s.regs d).fd, cfgv := (s.regs d).cfgv, ien := (s.regs d).ien, en := (s.regs d).en }

/-! ## Output events and the ports to the frame engine -/

/-- An output event is emitted after the earlier ones (R12). -/
def State.emit (s : State) (e : OutEvent) : State := { s with out := s.out ++ [e] }

/-- `SLATCH <- StatusRead()`; the value read is the operand of the `IRQ` event word by definition (R62, R80, R152). -/
def State.latchStatus (s : State) (st : Status) : State := { s.emit .statusRead with slatch := st }

/-- `TxDataWrite(w)` (R63). -/
def State.txDataWrite (s : State) (w : Word) : State := s.emit (.txDataWrite w)

/-- The word `RxDataRead()` returns: the environment's next answer, or a free value where it has given none (R64, U3;
notes/assumptions/8.md). -/
def State.rxWord (s : State) : Word :=
  match s.rxAnswers with
  | w :: _ => w
  | [] => Config.freeRxWord s.draws

/-- `RxDataRead()` as an effect: one read, which uses up the answer, or the draw (R64). -/
def State.rxDataRead (s : State) : State :=
  match s.rxAnswers with
  | _ :: ws => { s.emit .rxDataRead with rxAnswers := ws }
  | [] => { s.emit .rxDataRead with draws := s.draws + 1 }

/-- `respond(w)` (R11). -/
def State.respond (s : State) (w : Word) : State := s.emit (.respond w)

/-! ## A configure command -/

/-- A configure command whose `DATLEN` R108 leaves unspecified uses a draw. -/
def State.drawDatlen (s : State) (bpc : BitsPerChannel) : State :=
  if bpcDefined bpc then s else { s with draws := s.draws + 1 }

/-- What `Resolve` gives in state `s`, the free value included. -/
def State.resolved (s : State) (d : Dir) (am : AudioMode) (cm : ClockMode) (bpc : BitsPerChannel) : Resolved :=
  resolve s.params.txEdge (Config.freeDatlen s.draws) d am cm bpc

/-- The configure command of direction `d`: pin claim, descriptors, commit, then the ready-interrupt enable
(R100, R101, R111). -/
def State.configure (s : State) (d : Dir) (am : AudioMode) (cm : ClockMode) (bpc : BitsPerChannel) : State :=
  let r := s.resolved d am cm bpc
  let claimed := (s.drawDatlen bpc).emit (.pinMux d r.mask)
  let committed := (claimed.setDescriptors d r.cd r.fd).emit (.commit d r.cd r.fd)
  committed.enableReady d

/-! ## A service: entry, its two steps, return -/

/-- The phase in which the callback of `d` runs (R40). -/
def callPhase (d : Dir) : Svc :=
  match d with
  | .tx => .txCall
  | .rx => .rxCall

/-- The call the service's step for `d` makes, if any: the latched status word classifies a ready event and a callback is
registered at this moment (R151, R154, R155). Nothing else is consulted (R156). -/
def State.pendingCall (s : State) (d : Dir) : Option (Handle × Channel) :=
  match classify s.params s.slatch d with
  | none => none
  | some ch => if (s.regs d).cb = Config.nullHandle then none else some ((s.regs d).cb, ch)

/-- `Call(d, h, ch) ; SVC <- TX_CALL` or `RX_CALL` (R67, R154, R155). -/
def State.call (s : State) (d : Dir) (h : Handle) (ch : Channel) : State :=
  { s.emit (.call d h ch) with svc := callPhase d }

/-- `SVC <- IDLE`: the service is complete (R153, R155). -/
def State.endService (s : State) : State := { s with svc := .idle }

/-- `ServiceRx()` (R155). -/
def State.serviceRx (s : State) : State :=
  match s.pendingCall .rx with
  | some (h, ch) => s.call .rx h ch
  | none => s.endService

/-- `ServiceTx()` (R154). -/
def State.serviceTx (s : State) : State :=
  match s.pendingCall .tx with
  | some (h, ch) => s.call .tx h ch
  | none => s.serviceRx

/-- TAKING THE INTERRUPT (R152, R175): one status read, latched, then the transmit step. Nothing is saved. -/
def State.enterService (s : State) (st : Status) : State := (s.latchStatus st).serviceTx

/-- RETURN FROM A CALLBACK (R153, R180): the transmit callback's return resumes at the receive step, the receive callback's
ends the service; with no call to return from, a `RET` is refused (U8; notes/assumptions/13.md). -/
def State.returnFromCallback (s : State) : Host.Outcome State Fault Refusal :=
  match s.svc with
  | .idle => .refused .retWhileIdle
  | .txCall => .next s.serviceRx
  | .rxCall => .next s.endService

/-! ## The reset pin -/

/-- Asserting reset puts every register of R20 in its reset state, abandons a running service and emits nothing
(R190, R191); the model's own fields, the environment's, stay (R192; notes/assumptions/11.md). -/
def State.assertReset (s : State) : State :=
  { s with tx := DirRegs.reset, rx := DirRegs.reset, slatch := 0#32, svc := .idle }

/-! ## Acceptance -/

/-- The event word is an `IRQ`. -/
def isIrq (ew : EventWord) : Bool :=
  match decode ew with
  | .instr (.irq _) => true
  | _ => false

/-- An `IRQ` is accepted only while `SVC = IDLE`; every other input is taken when its turn comes (R90, R177, R179). -/
def accepts (phase : Svc) (x : Input) : Bool :=
  match x with
  | .resetPin => true
  | .word ew => phase == .idle || !isIrq ew

/-- The input taken next and the inputs left: the oldest one that is accepted in the phase. An `IRQ` that is not accepted
keeps its place and waits (R68, R177; notes/assumptions/3.md, 4.md). -/
def nextInput (phase : Svc) (xs : List Input) : Option (Input × List Input) :=
  match xs with
  | [] => none
  | x :: rest =>
    if accepts phase x then some (x, rest)
    else
      match nextInput phase rest with
      | none => none
      | some (y, left) => some (y, x :: left)

/-- An event word that is not accepted stays at the port, the oldest of the inputs (R177; notes/assumptions/4.md). -/
def State.holdBack (s : State) (i : Instr) : State := { s with inbox := .word (encode i) :: s.inbox }

end Sys2Proof.Machine
end

