-- ==== Sys2Proof/Machine/DataIo.lean ====
section
/-! DEFINITION. The data pass-throughs (42_data_io.md R140 to R142). -/

namespace Sys2Proof.Machine

/-- `WRSMP w` (R140): forwarded in any phase, all 32 bits unchanged (R142). -/
def execWrsmp (w : Word) (s : State) : Host.Outcome State Fault Refusal :=
  .next (s.txDataWrite w)

/-- `RDSMP` (R141): `v <- RxDataRead() ; respond(v)`, forwarded in any phase (R142). -/
def execRdsmp (s : State) : Host.Outcome State Fault Refusal :=
  .next (s.rxDataRead.respond s.rxWord)

end Sys2Proof.Machine
end

