-- ==== Sys2Proof/Machine/Gate.lean ====
section
/-! DEFINITION. The enable gate and callback registration (41_gate_and_registration.md R130 to R133). -/

namespace Sys2Proof.Machine

/-- `SETEN dir, b` (R130): accepted whether or not the direction was configured (R131 (b)). -/
def execSeten (dir : Dir) (enb : Bool) (s : State) : Host.Outcome State Fault Refusal :=
  .next (s.setEn dir enb)

/-- `SETCB dir, h` (R132), one atomic transition. A main-context `SETCB` that races with a service (R202) is told apart by
the order in which the two arrive: unsafe if a real handle can be torn (notes/assumptions/10.md). -/
def execSetcb (dir : Dir) (h : Handle) (s : State) : Host.Outcome State Fault Refusal :=
  .next (s.setCb dir h)

end Sys2Proof.Machine
end

