-- ==== Sys2Proof/Machine/Resolver.lean ====
section
/-! DEFINITION. The two configure commands (40_mode_resolver.md R100, R101). -/

namespace Sys2Proof.Machine

/-- `CFGTX am, cm, bpc` (R100). No operand is checked and no state but the transmit direction's is touched. -/
def execCfgtx (am : AudioMode) (cm : ClockMode) (bpc : BitsPerChannel) (s : State) :
    Host.Outcome State Fault Refusal :=
  .next (s.configure .tx am cm bpc)

/-- `CFGRX am, cm, bpc` (R101). -/
def execCfgrx (am : AudioMode) (cm : ClockMode) (bpc : BitsPerChannel) (s : State) :
    Host.Outcome State Fault Refusal :=
  .next (s.configure .rx am cm bpc)

end Sys2Proof.Machine
end

