-- ==== Sys2Proof/Machine/Service.lean ====
section
/-! DEFINITION. The ready interrupt and the callback return (43_service.md R152, R153). -/

namespace Sys2Proof.Machine

/-- `IRQ s` (R152): accepted only while `SVC = IDLE`; otherwise nothing happens and the event waits at its port (R177,
D28: no step, and no refusal). -/
def execIrq (st : Status) (s : State) : Host.Outcome State Fault Refusal :=
  match s.svc with
  | .idle => .next (s.enterService st)
  | .txCall | .rxCall => .next (s.holdBack (.irq st))

/-- `RET` (R153). -/
def execRet (s : State) : Host.Outcome State Fault Refusal :=
  s.returnFromCallback

end Sys2Proof.Machine
end

