-- ==== Sys2Proof/Machine/Dispatch.lean ====
section
/-! DEFINITION. One arm per constructor of Instr. -/

namespace Sys2Proof.Machine

def exec (i : Instr) (s : State) : Host.Outcome State Fault Refusal :=
  match i with
  | .cfgtx am cm bpc => Sys2Proof.Machine.execCfgtx am cm bpc s
  | .cfgrx am cm bpc => Sys2Proof.Machine.execCfgrx am cm bpc s
  | .seten dir enb => Sys2Proof.Machine.execSeten dir enb s
  | .setcb dir h => Sys2Proof.Machine.execSetcb dir h s
  | .wrsmp w => Sys2Proof.Machine.execWrsmp w s
  | .rdsmp => Sys2Proof.Machine.execRdsmp s
  | .irq st => Sys2Proof.Machine.execIrq st s
  | .ret => Sys2Proof.Machine.execRet s

end Sys2Proof.Machine
end

