-- ==== Sys2Proof/Machine/Fetch.lean ====
section
/-! DEFINITION. Taking one input (20_memory.md R68; 30_encoding.md R89, R90): what Step.lean calls. -/

namespace Sys2Proof.Machine

/-- Run one event word: its instruction, or a refusal by name where R89 calls the word reserved (U8;
notes/assumptions/12.md). -/
def runWord (ew : EventWord) (s : State) : Host.Outcome State Fault Refusal :=
  match decode ew with
  | .instr i => exec i s
  | .reserved why => .refused (.reservedEventWord why)

/-- Run one input. -/
def runInput (x : Input) (s : State) : Host.Outcome State Fault Refusal :=
  match x with
  | .word ew => runWord ew s
  | .resetPin => .next s.assertReset

/-- Take the next accepted input and run it. With none the block takes no step and the state stays as it is (R16: purely
reactive; notes/assumptions/3.md). -/
def takeInput (s : State) : Host.Outcome State Fault Refusal :=
  match nextInput s.svc s.inbox with
  | none => .next s
  | some (x, left) => runInput x { s with inbox := left }

/-- An event word arrives ahead of the inputs that wait. -/
def placeFirst (ew : EventWord) (s : State) : State := { s with inbox := .word ew :: s.inbox }

end Sys2Proof.Machine
end

