-- ==== Sys2Proof/Machine/Step.lean ====
section
/-! DEFINITION. One step of the block, and the placing of an event word where the next step takes it. -/

namespace Sys2Proof.Machine

/-- One atomic transition (00_scope.md R12). -/
def step (s : State) : Host.Outcome State Fault Refusal := takeInput s

/-- `s` with the event word that the opcode table numbers as `w` arriving first: the next step takes it (an `IRQ` only while
`SVC = IDLE`, R177). It stands for the word's arrival at its port (notes/assumptions/3.md). -/
def State.withFetchWord (s : State) (nbits w : Nat) : State := placeFirst (tableWord nbits w) s

end Sys2Proof.Machine
end

