-- ==== Sys2Proof/Safety.lean ====
section
/-! DEFINITION. What counts as a safe run, in the terms claims use: the invariant of R45, what a running service rests on, the
host's obligations (70_reset_and_hazards.md R197 to R206) and the premises about the frame engine (20_memory.md R70 to R78,
60_exceptions.md R172). The machine enforces none of the obligations and none of the premises. -/

namespace Sys2Proof.Safety

open Sys2Proof Sys2Proof.Machine

/-! ## Invariants -/

/-- What R45 says of a clock descriptor that a configure command of `d` has written. -/
abbrev ClockDescriptorLegal (p : Params) (d : Dir) (cd : Descriptor) : Prop :=
  cdCko cd = 0#1 ∧ cdSttdly cd = 1#8 ∧ cdReserved cd = 0#2 ∧ cdStart cd ≠ 3#2 ∧
  (cdStart cd = 2#2 ↔ cdCks cd = 1#1) ∧
  (cdCks cd = 0#1 → cdStart cd = (cdEdge cd).setWidth 2) ∧
  (d = .tx → cdCki cd = edgeCode p.txEdge) ∧
  (d = .rx → cdCki cd = 1#1 - edgeCode p.txEdge)

/-- What R45 says of a frame descriptor that a configure command has written. -/
abbrev FrameDescriptorLegal (fd : Descriptor) : Prop :=
  fdMsbf fd = 1#1 ∧ fdFsos fd = 0#1 ∧ fdReserved fd = 0#7 ∧ (fdNslot fd = 1#2 ∨ fdNslot fd = 2#2)

/-- R45 for one direction. -/
abbrev DirectionLegal (p : Params) (d : Dir) (r : DirRegs) : Prop :=
  r.ien = r.cfgv ∧ (r.cfgv = true → ClockDescriptorLegal p d r.cd ∧ FrameDescriptorLegal r.fd)

/-- R45 (that `SVC` is not 3 is in its type). -/
abbrev RegistersLegal (s : State) : Prop :=
  DirectionLegal s.params .tx s.tx ∧ DirectionLegal s.params .rx s.rx

/-- A running callback was called for a ready bit of the latched status word (R154, R155). -/
abbrev ServiceGrounded (s : State) : Prop :=
  (s.svc = .txCall → readyBit s.params s.slatch .tx = true) ∧
  (s.svc = .rxCall → readyBit s.params s.slatch .rx = true)

/-- Every direction whose ready interrupt is enabled has a callback (R201: registration happens before any enable). -/
abbrev RegisteredBeforeEnabled (s : State) : Prop :=
  (s.tx.ien = true → s.tx.cb ≠ Config.nullHandle) ∧ (s.rx.ien = true → s.rx.cb ≠ Config.nullHandle)

/-! ## Premises about the frame engine -/

/-- The request condition of R172: an enabled direction is ready. -/
def requested (s : State) (st : Status) : Bool :=
  (s.tx.ien && readyBit s.params st .tx) || (s.rx.ien && readyBit s.params st .rx)

/-- The ready events of a stereo direction (R74): ready each time, the sync bit set first and then alternating; `sync` says
whether it is set in the first word. -/
def stereoPattern (p : Params) (d : Dir) (sync : Bool) (sts : List Status) : Bool :=
  match sts with
  | [] => true
  | st :: rest => readyBit p st d && (syncBit p st d == sync) && stereoPattern p d (!sync) rest

/-- The ready events of a mono direction (R74): ready and sync bit set each time. -/
def monoPattern (p : Params) (d : Dir) (sts : List Status) : Bool :=
  sts.all (fun st => readyBit p st d && syncBit p st d)

/-- The classifications of a stereo direction's ready events in normal operation (R160): period 2. -/
def alternating (first : Channel) (n : Nat) : List (Option Channel) :=
  match n with
  | 0 => []
  | k + 1 => some first :: alternating (match first with | .ch1 => .ch2 | .ch2 => .ch1) k

/-! ## Obligations of the host -/

/-- The leader of a shared-clock direction is configured, enabled and on its own pins (R198). -/
def leaderReady (s : State) (d : Dir) (cm : ClockMode) : Bool :=
  match cm with
  | .external => true
  | .shared => (s.regs (other d)).cfgv && (s.regs (other d)).en && cdCks (s.regs (other d)).cd == 0#1

/-- A main-context `SETCB d` while the ready interrupt of `d` is enabled: the race of R202. -/
def racingSetcb (s : State) (d : Dir) : Bool := s.svc == .idle && (s.regs d).ien

/-- The host's obligations for one instruction: bits-per-channel in range (R108), registration before configuration and the
leader first (R197, R198), configuration before enabling (R200), no racing replacement (R202), data commands inside the
direction's callback (R205), an `IRQ` only when requested and a `RET` only from a call (R172, R180). -/
def hostKeeps (i : Instr) (s : State) : Bool :=
  match i with
  | .cfgtx _ cm bpc => bpcDefined bpc && s.tx.cb != Config.nullHandle && leaderReady s .tx cm
  | .cfgrx _ cm bpc => bpcDefined bpc && s.rx.cb != Config.nullHandle && leaderReady s .rx cm
  | .seten d b => !b || (s.regs d).cfgv
  | .setcb d _ => !racingSetcb s d
  | .wrsmp _ => s.svc == .txCall
  | .rdsmp => s.svc == .rxCall
  | .irq st => s.svc == .idle && requested s st
  | .ret => s.svc != .idle

/-- The part of the obligations that R201 needs: a direction is configured, and so its interrupt enabled, only with a callback
registered, and a callback is unregistered only while its interrupt is not enabled. -/
def keepsRegistered (i : Instr) (s : State) : Bool :=
  match i with
  | .cfgtx _ _ _ => s.tx.cb != Config.nullHandle
  | .cfgrx _ _ _ => s.rx.cb != Config.nullHandle
  | .setcb d h => h != Config.nullHandle || !(s.regs d).ien
  | _ => true

/-! ## The table of R115 -/

/-- The configure command of a direction (R81). -/
def configureInstr (d : Dir) (am : AudioMode) (cm : ClockMode) (bpc : BitsPerChannel) : Instr :=
  match d with
  | .tx => .cfgtx am cm bpc
  | .rx => .cfgrx am cm bpc

/-- The columns of one row of R115's table: bits-per-channel 16, `TX_EDGE = FALLING`. -/
structure ResolverRow where
  cw : CommandWord
  cks : BitVec 1
  start : BitVec 2
  edge : BitVec 1
  cki : BitVec 1
  nslot : BitVec 2
  datlen : BitVec 5
  cd : Descriptor
  fd : Descriptor
  mask : PinMask
deriving DecidableEq, Repr

/-- The twelve rows of R115, copied from the spec. -/
def resolverTable (d : Dir) (am : AudioMode) (cm : ClockMode) : ResolverRow :=
  match d, am, cm with
  | .tx, .monoLeft, .external => ⟨0x1010#16, 0#1, 0#2, 0#1, 0#1, 1#2, 15#5, 0x0100#16, 0x006F#16, 0b111#3⟩
  | .tx, .monoLeft, .shared => ⟨0x1210#16, 1#1, 2#2, 0#1, 0#1, 1#2, 15#5, 0x0105#16, 0x006F#16, 0b001#3⟩
  | .tx, .monoRight, .external => ⟨0x1410#16, 0#1, 1#2, 1#1, 0#1, 1#2, 15#5, 0x010A#16, 0x006F#16, 0b111#3⟩
  | .tx, .monoRight, .shared => ⟨0x1610#16, 1#1, 2#2, 1#1, 0#1, 1#2, 15#5, 0x010D#16, 0x006F#16, 0b001#3⟩
  | .tx, .stereo, .external => ⟨0x1810#16, 0#1, 0#2, 0#1, 0#1, 2#2, 15#5, 0x0100#16, 0x00AF#16, 0b111#3⟩
  | .tx, .stereo, .shared => ⟨0x1A10#16, 1#1, 2#2, 0#1, 0#1, 2#2, 15#5, 0x0105#16, 0x00AF#16, 0b001#3⟩
  | .rx, .monoLeft, .external => ⟨0x2010#16, 0#1, 0#2, 0#1, 1#1, 1#2, 15#5, 0x0110#16, 0x006F#16, 0b111#3⟩
  | .rx, .monoLeft, .shared => ⟨0x2210#16, 1#1, 2#2, 0#1, 1#1, 1#2, 15#5, 0x0115#16, 0x006F#16, 0b001#3⟩
  | .rx, .monoRight, .external => ⟨0x2410#16, 0#1, 1#2, 1#1, 1#1, 1#2, 15#5, 0x011A#16, 0x006F#16, 0b111#3⟩
  | .rx, .monoRight, .shared => ⟨0x2610#16, 1#1, 2#2, 1#1, 1#1, 1#2, 15#5, 0x011D#16, 0x006F#16, 0b001#3⟩
  | .rx, .stereo, .external => ⟨0x2810#16, 0#1, 0#2, 0#1, 1#1, 2#2, 15#5, 0x0110#16, 0x00AF#16, 0b111#3⟩
  | .rx, .stereo, .shared => ⟨0x2A10#16, 1#1, 2#2, 0#1, 1#1, 2#2, 15#5, 0x0115#16, 0x00AF#16, 0b001#3⟩

/-- `cd` for any `TX_EDGE` (R115: "For `TX_EDGE = RISING`, `cd[4]` is inverted in every row"). -/
def tableCd (e : Edge) (d : Dir) (am : AudioMode) (cm : ClockMode) : Descriptor :=
  match e with
  | .falling => (resolverTable d am cm).cd
  | .rising => (resolverTable d am cm).cd ^^^ 0x0010#16

/-- `fd` for any frame length (R115: `(fd of the table and 0xFFE0) or (bpc - 1)`). -/
def tableFd (d : Dir) (am : AudioMode) (cm : ClockMode) (datlen : BitVec 5) : Descriptor :=
  ((resolverTable d am cm).fd &&& 0xFFE0#16) ||| datlen.setWidth 16

/-- Bits-per-channel minus 1, for 1..32 (R108). -/
def lengthOf (bpc : BitsPerChannel) : BitVec 5 := BitVec.ofNat 5 (bpc.toNat - 1)

/-- Direction `d` after a configure command with this frame length (R100, R101). -/
def configuredRegs (s : State) (d : Dir) (am : AudioMode) (cm : ClockMode) (datlen : BitVec 5) : DirRegs :=
  { s.regs d with
    cd := tableCd s.params.txEdge d am cm
    fd := tableFd d am cm datlen
    cfgv := true
    ien := true }

/-- The two output events of a configure command, in order (R100, R101, R111). -/
def configureEvents (s : State) (d : Dir) (am : AudioMode) (cm : ClockMode) (datlen : BitVec 5) : List OutEvent :=
  [.pinMux d (resolverTable d am cm).mask, .commit d (tableCd s.params.txEdge d am cm) (tableFd d am cm datlen)]

end Sys2Proof.Safety
end

