-- ==== Sys2Proof/Certificates/Slice0/Obligations.lean ====
section
/-! DEFINITION. The statements for the provers. -/

open Sys2Proof Sys2Proof.Machine Sys2Proof.Safety

/-- The event words of the spec's decode vectors read as the instructions they stand for. Formalises 30_encoding.md rules R80 to R89, 95_test_vectors.md V7. -/
def Obligations.SpecWordsDecode : Prop :=
  decode 0x181000000000#48 = .instr (.cfgtx .stereo .external 16#8) ∧
  decode 0x1810DEADBEEF#48 = .instr (.cfgtx .stereo .external 16#8) ∧
  decode 0x2A0800000000#48 = .instr (.cfgrx .stereo .shared 8#8) ∧
  decode 0x1C1000000000#48 = .reserved .audioMode ∧
  decode 0x191000000000#48 = .reserved .mustBeZero ∧
  decode 0x340000000000#48 = .instr (.seten .tx true) ∧
  decode 0x340100000000#48 = .reserved .mustBeZero ∧
  decode 0x480000002000#48 = .instr (.setcb .rx 0x2000#32) ∧
  decode 0x440000002000#48 = .reserved .mustBeZero ∧
  decode 0x500012345678#48 = .instr (.wrsmp 0x12345678#32) ∧
  decode 0x600000000000#48 = .instr .rdsmp ∧
  decode 0x600100000000#48 = .reserved .mustBeZero ∧
  decode 0x700000000401#48 = .instr (.irq 0x401#32) ∧
  decode 0x800000000000#48 = .instr .ret ∧
  decode 0x000000000000#48 = .reserved .opcode ∧
  decode 0x900000000000#48 = .reserved .opcode ∧
  decode 0xF00000000000#48 = .reserved .opcode

/-- Decoding the encoding of any instruction gives that instruction back. Formalises 30_encoding.md rules R80 to R88. -/
def Obligations.DecodeOfEncodeIsTheInstruction : Prop :=
  ∀ i : Instr, decode (encode i) = .instr i

/-- An event word decodes to an instruction exactly when it carries its encoding on the bits its format does not ignore. Formalises 30_encoding.md rules R80 to R89. -/
def Obligations.DecodedExactlyBySignificantBits : Prop :=
  ∀ (ew : EventWord) (i : Instr), decode ew = .instr i ↔ ew &&& significantBits i = encode i

/-- The decoder accepts exactly the event words that the match and mask values admit. Formalises 30_encoding.md rules R82 to R87 and R89. -/
def Obligations.DecoderAcceptsExactlyWellFormedWords : Prop :=
  ∀ ew : EventWord, (∃ i, decode ew = .instr i) ↔ WellFormed.eventWord ew = true

/-- An event word is reserved exactly in the three cases of R89, and a step that takes one is refused. Formalises R89. -/
def Obligations.ReservedWordsHaveNoMeaning : Prop :=
  (∀ ew : EventWord,
    (∃ why, decode ew = .reserved why) ↔
      ((ew.extractLsb' 44 4 = 0x0#4 ∨ 9 ≤ (ew.extractLsb' 44 4).toNat) ∨
       ((ew.extractLsb' 44 4 = 0x1#4 ∨ ew.extractLsb' 44 4 = 0x2#4) ∧
          (ew.getLsbD 40 = true ∨ ew.extractLsb' 42 2 = 3#2)) ∨
       (ew.extractLsb' 44 4 = 0x3#4 ∧ ew.extractLsb' 32 10 ≠ 0#10) ∨
       (ew.extractLsb' 44 4 = 0x4#4 ∧ ew.extractLsb' 32 11 ≠ 0#11) ∨
       ((5 ≤ (ew.extractLsb' 44 4).toNat ∧ (ew.extractLsb' 44 4).toNat ≤ 8) ∧ ew.extractLsb' 32 12 ≠ 0#12))) ∧
  (∀ (s : State) (ew : EventWord) (left : List Input) (why : Reserved),
    nextInput s.svc s.inbox = some (.word ew, left) → decode ew = .reserved why →
      step s = .refused (.reservedEventWord why))

/-- A step runs the instruction of the event word taken next. The inbox and the step that does nothing are the model's choice (notes/assumptions/3.md). Formalises 20_memory.md rule R68, 00_scope.md rules R12 and R16, notes/assumptions/3.md (the inbox and the idle step are the model's choice). -/
def Obligations.StepRunsTheDecodedInstruction : Prop :=
  (∀ (s : State) (ew : EventWord) (left : List Input) (i : Instr),
    nextInput s.svc s.inbox = some (.word ew, left) → decode ew = .instr i →
      step s = exec i { s with inbox := left }) ∧
  (∀ s : State, nextInput s.svc s.inbox = none → step s = .next s) ∧
  (∀ (s : State) (x : Input) (rest : List Input),
    s.svc = .idle → s.inbox = x :: rest → nextInput s.svc s.inbox = some (x, rest))

/-- An event word placed by withFetchWord is what the next step runs. The numbering of a word's bits is the model's choice (notes/assumptions/18.md). Formalises 30_encoding.md rules R80 and R90, notes/assumptions/18.md (the numbering is the model's choice). -/
def Obligations.PlacedWordRunsNext : Prop :=
  ∀ (s : State) (nbits w : Nat) (i : Instr),
    decodeTableWord nbits w = some i → (s.svc = .idle ∨ ∀ st, i ≠ .irq st) →
      step (s.withFetchWord nbits w) = exec i s

/-- The input taken next is the oldest one, passing over only interrupts that wait. That a waiting IRQ keeps its place is the model's choice (notes/assumptions/4.md). Formalises 20_memory.md rule R68, 60_exceptions.md rules R176 and R177, notes/assumptions/4.md (an IRQ that waits keeps its place: the model's choice). -/
def Obligations.InputsTakenInArrivalOrder : Prop :=
  ∀ (phase : Svc) (xs : List Input) (x : Input) (left : List Input),
    nextInput phase xs = some (x, left) ↔
      ∃ before after, xs = before ++ x :: after ∧ left = before ++ after ∧
        (∀ y ∈ before, phase ≠ .idle ∧ ∃ ew st, y = .word ew ∧ decode ew = .instr (.irq st)) ∧
        (phase = .idle ∨ ∀ ew st, x = .word ew → decode ew ≠ .instr (.irq st))

/-- After reset no callback is registered, nothing is enabled or configured, and no service is in progress. Formalises 10_state.md rule R44 (the rows with a value). -/
def Obligations.ResetLeavesTheSpecsValues : Prop :=
  (∀ d : Dir, (State.reset.regs d).cb = 0#32 ∧ (State.reset.regs d).ien = false ∧
    (State.reset.regs d).en = false ∧ (State.reset.regs d).cfgv = false) ∧
  State.reset.svc = .idle

/-- The reset pin puts the registers in their reset values from any state and emits nothing. Formalises 70_reset_and_hazards.md rule R190, 10_state.md rule R44 (the rows with a value). -/
def Obligations.ResetPinResetsEveryPhase : Prop :=
  ∀ (s : State) (left : List Input), nextInput s.svc s.inbox = some (.resetPin, left) →
    ∃ t, step s = .next t ∧
      (∀ d : Dir, (t.regs d).cb = 0#32 ∧ (t.regs d).ien = false ∧ (t.regs d).en = false ∧ (t.regs d).cfgv = false) ∧
      t.svc = .idle ∧ t.out = s.out ∧ t.inbox = left

/-- Reset during a service ends it, and the abandoned callback's RET is refused. Formalises R191. -/
def Obligations.ResetAbandonsARunningService : Prop :=
  ∀ (s : State) (rest : List Input), s.svc ≠ .idle →
    ∃ t, step { s with inbox := .resetPin :: .word (encode .ret) :: rest } = .next t ∧
      t.svc = .idle ∧ t.out = s.out ∧ step t = .refused .retWhileIdle

/-- No instruction clears IEN or CFGV of any direction. Formalises 70_reset_and_hazards.md rule R190 (last sentence), 10_state.md rules R35 and R36, 60_exceptions.md rule R181. -/
def Obligations.OnlyResetUnconfigures : Prop :=
  ∀ (i : Instr) (s t : State) (d : Dir), exec i s = .next t →
    ((s.regs d).ien = true → (t.regs d).ien = true) ∧ ((s.regs d).cfgv = true → (t.regs d).cfgv = true)

/-- SETEN writes the enable of its direction and nothing else. Formalises R130. -/
def Obligations.SetenWritesOneEnable : Prop :=
  (∀ (b : Bool) (s : State), exec (.seten .tx b) s = .next { s with tx := { s.tx with en := b } }) ∧
  (∀ (b : Bool) (s : State), exec (.seten .rx b) s = .next { s with rx := { s.rx with en := b } }) ∧
  decode 0x340000000000#48 = .instr (.seten .tx true) ∧
  decode 0x380000000000#48 = .instr (.seten .rx false)

/-- SETCB writes the callback handle of its direction and nothing else. Formalises R132. -/
def Obligations.SetcbRegistersOneHandle : Prop :=
  (∀ (h : Handle) (s : State), exec (.setcb .tx h) s = .next { s with tx := { s.tx with cb := h } }) ∧
  (∀ (h : Handle) (s : State), exec (.setcb .rx h) s = .next { s with rx := { s.rx with cb := h } }) ∧
  decode 0x400000001000#48 = .instr (.setcb .tx 0x1000#32) ∧
  decode 0x480000000000#48 = .instr (.setcb .rx 0#32)

/-- Enabling or disabling a direction twice in a row gives the state of doing it once. Formalises 41_gate_and_registration.md rule R131 (a). -/
def Obligations.EnablingTwiceIsEnablingOnce : Prop :=
  ∀ (d : Dir) (b : Bool) (s : State), ∃ t, exec (.seten d b) s = .next t ∧ exec (.seten d b) t = .next t

/-- No rule reads the data-path enable: every instruction commutes with changing EN. Formalises 10_state.md rule R37. -/
def Obligations.EnableIsNeverRead : Prop :=
  ∀ (i : Instr) (s : State) (d : Dir) (v : Bool), (∀ b, i ≠ .seten d b) →
    (∀ t, exec i s = .next t → exec i (s.setEn d v) = .next (t.setEn d v)) ∧
    (∀ r, exec i s = .refused r → exec i (s.setEn d v) = .refused r)

/-- WRSMP performs one write of its word to the transmit data register in any state. Formalises R140. -/
def Obligations.WrsmpForwardsTheWord : Prop :=
  (∀ (w : Word) (s : State), exec (.wrsmp w) s = .next { s with out := s.out ++ [.txDataWrite w] }) ∧
  decode 0x500000001234#48 = .instr (.wrsmp 0x1234#32)

/-- RDSMP performs one read of the receive data register and responds with the word read. Formalises R141. -/
def Obligations.RdsmpRespondsWithTheWordRead : Prop :=
  (∀ (s : State) (w : Word) (ws : List Word), s.rxAnswers = w :: ws →
    exec .rdsmp s = .next { s with rxAnswers := ws, out := s.out ++ [.rxDataRead, .respond w] }) ∧
  (∀ s : State, s.rxAnswers = [] →
    ∃ v, exec .rdsmp s = .next { s with draws := s.draws + 1, out := s.out ++ [.rxDataRead, .respond v] }) ∧
  decode 0x600000000000#48 = .instr .rdsmp

/-- Every field of the resolver's descriptors follows its rule. DATLEN is the value of R108 on 1..32; outside, R108 leaves it unspecified and nothing is said of it. Formalises R103, R104, R105, R106, R107, R109, R110. -/
def Obligations.ResolverFieldsFollowTheirRules : Prop :=
  ∀ (e : Edge) (free : BitVec 5) (d : Dir) (am : AudioMode) (cm : ClockMode) (bpc : BitsPerChannel),
    let r := resolve e free d am cm bpc
    cdCks r.cd = (if cm = .shared then 1#1 else 0#1) ∧
    cdEdge r.cd = (if am = .monoRight then 1#1 else 0#1) ∧
    cdStart r.cd = (if cm = .shared then 2#2 else if am = .monoRight then 1#2 else 0#2) ∧
    cdCki r.cd = (if d = .tx then (if e = .rising then 1#1 else 0#1) else (if e = .rising then 0#1 else 1#1)) ∧
    cdCko r.cd = 0#1 ∧ cdReserved r.cd = 0#2 ∧ cdSttdly r.cd = 1#8 ∧
    fdMsbf r.fd = 1#1 ∧ fdFsos r.fd = 0#1 ∧ fdReserved r.fd = 0#7 ∧
    fdNslot r.fd = (if am = .stereo then 2#2 else 1#2) ∧
    (1 ≤ bpc.toNat → bpc.toNat ≤ 32 → (fdDatlen r.fd).toNat = bpc.toNat - 1) ∧
    r.mask = (if cm = .shared then 0b001#3 else 0b111#3)

/-- The resolver gives the complete result table of R115, for every bits-per-channel and either TX_EDGE. Formalises R115. -/
def Obligations.ResolverTableHolds : Prop :=
  ∀ (d : Dir) (am : AudioMode) (cm : ClockMode),
    let row := resolverTable d am cm
    (∀ op : BitVec 32, decode (row.cw ++ op) = .instr (configureInstr d am cm 16#8)) ∧
    (cdCks row.cd = row.cks ∧ cdStart row.cd = row.start ∧ cdEdge row.cd = row.edge ∧ cdCki row.cd = row.cki ∧
      fdNslot row.fd = row.nslot ∧ fdDatlen row.fd = row.datlen) ∧
    (∀ free : BitVec 5, resolve .falling free d am cm 16#8 = ⟨row.cd, row.fd, row.mask⟩) ∧
    (∀ (free : BitVec 5) (bpc : BitsPerChannel), 1 ≤ bpc.toNat → bpc.toNat ≤ 32 →
      (resolve .falling free d am cm bpc = ⟨row.cd, (row.fd &&& 0xFFE0#16) ||| (bpc.setWidth 16 - 1#16), row.mask⟩) ∧
      (resolve .rising free d am cm bpc =
        ⟨row.cd ^^^ 0x0010#16, (row.fd &&& 0xFFE0#16) ||| (bpc.setWidth 16 - 1#16), row.mask⟩))

/-- DATLEN is bits-per-channel minus 1 on 1..32, and some 5-bit value outside, where the command still completes. Formalises R108. -/
def Obligations.FrameLengthIsBitsPerChannelMinusOne : Prop :=
  ∀ (d : Dir) (am : AudioMode) (cm : ClockMode) (bpc : BitsPerChannel) (s : State),
    (1 ≤ bpc.toNat → bpc.toNat ≤ 32 →
      ∃ t, exec (configureInstr d am cm bpc) s = .next t ∧ (fdDatlen (t.regs d).fd).toNat = bpc.toNat - 1) ∧
    (bpc.toNat = 0 ∨ 33 ≤ bpc.toNat →
      ∃ x t, exec (configureInstr d am cm bpc) s = .next t ∧ t.regs d = configuredRegs s d am cm x ∧
        fdDatlen (t.regs d).fd = x ∧ t.out = s.out ++ configureEvents s d am cm x)

/-- CFGTX writes the transmit descriptors, emits PinMux then Commit, and enables the transmit ready interrupt. Formalises R100. -/
def Obligations.CfgtxConfiguresTransmit : Prop :=
  (∀ (am : AudioMode) (cm : ClockMode) (bpc : BitsPerChannel) (s : State), 1 ≤ bpc.toNat → bpc.toNat ≤ 32 →
    exec (.cfgtx am cm bpc) s = .next { s with
      tx := configuredRegs s .tx am cm (lengthOf bpc)
      out := s.out ++ configureEvents s .tx am cm (lengthOf bpc) }) ∧
  (∀ (am : AudioMode) (cm : ClockMode) (bpc : BitsPerChannel) (s : State), bpc.toNat = 0 ∨ 33 ≤ bpc.toNat →
    ∃ x, exec (.cfgtx am cm bpc) s = .next { s with
      tx := configuredRegs s .tx am cm x
      out := s.out ++ configureEvents s .tx am cm x
      draws := s.draws + 1 }) ∧
  decode 0x181000000000#48 = .instr (.cfgtx .stereo .external 16#8) ∧
  (∀ s : State, s.params.txEdge = .falling → ∃ t, exec (.cfgtx .stereo .external 16#8) s = .next t ∧
    t.tx.cd = 0x0100#16 ∧ t.tx.fd = 0x00AF#16 ∧ t.tx.cfgv = true ∧ t.tx.ien = true ∧
    t.out = s.out ++ [.pinMux .tx 0b111#3, .commit .tx 0x0100#16 0x00AF#16])

/-- CFGRX writes the receive descriptors, emits PinMux then Commit, and enables the receive ready interrupt. Formalises R101. -/
def Obligations.CfgrxConfiguresReceive : Prop :=
  (∀ (am : AudioMode) (cm : ClockMode) (bpc : BitsPerChannel) (s : State), 1 ≤ bpc.toNat → bpc.toNat ≤ 32 →
    exec (.cfgrx am cm bpc) s = .next { s with
      rx := configuredRegs s .rx am cm (lengthOf bpc)
      out := s.out ++ configureEvents s .rx am cm (lengthOf bpc) }) ∧
  (∀ (am : AudioMode) (cm : ClockMode) (bpc : BitsPerChannel) (s : State), bpc.toNat = 0 ∨ 33 ≤ bpc.toNat →
    ∃ x, exec (.cfgrx am cm bpc) s = .next { s with
      rx := configuredRegs s .rx am cm x
      out := s.out ++ configureEvents s .rx am cm x
      draws := s.draws + 1 }) ∧
  decode 0x242000000000#48 = .instr (.cfgrx .monoRight .external 32#8) ∧
  (∀ s : State, s.params.txEdge = .falling → ∃ t, exec (.cfgrx .monoRight .external 32#8) s = .next t ∧
    t.rx.cd = 0x011A#16 ∧ t.rx.fd = 0x007F#16 ∧ t.rx.cfgv = true ∧ t.rx.ien = true ∧
    t.out = s.out ++ [.pinMux .rx 0b111#3, .commit .rx 0x011A#16 0x007F#16])

/-- A configure command neither reads nor writes the other direction, and the two resolvers differ in CKI alone. Formalises R113. -/
def Obligations.ConfigureReadsNothingOfTheOtherDirection : Prop :=
  (∀ (d : Dir) (am : AudioMode) (cm : ClockMode) (bpc : BitsPerChannel) (s : State) (r : DirRegs),
    ∃ t, exec (configureInstr d am cm bpc) s = .next t ∧ t.regs (other d) = s.regs (other d) ∧
      exec (configureInstr d am cm bpc) (s.setRegs (other d) r) = .next (t.setRegs (other d) r)) ∧
  (∀ (e : Edge) (free : BitVec 5) (am : AudioMode) (cm : ClockMode) (bpc : BitsPerChannel),
    (resolve e free .tx am cm bpc).cd ^^^ (resolve e free .rx am cm bpc).cd = 0x0010#16 ∧
    (resolve e free .tx am cm bpc).fd = (resolve e free .rx am cm bpc).fd ∧
    (resolve e free .tx am cm bpc).mask = (resolve e free .rx am cm bpc).mask)

/-- Repeating a configure command leaves the same registers and emits the same two events again. Formalises 40_mode_resolver.md rule R112. -/
def Obligations.ConfiguringTwiceIsConfiguringOnce : Prop :=
  ∀ (d : Dir) (am : AudioMode) (cm : ClockMode) (bpc : BitsPerChannel) (s : State),
    1 ≤ bpc.toNat → bpc.toNat ≤ 32 →
    ∃ t u e1 e2, exec (configureInstr d am cm bpc) s = .next t ∧ exec (configureInstr d am cm bpc) t = .next u ∧
      t.out = s.out ++ [e1, e2] ∧ u = { t with out := t.out ++ [e1, e2] } ∧ (t.regs d).ien = true

/-- The classifier reports no event, channel-1 or channel-2 by the ready and sync bits of the direction alone. Formalises R150. -/
def Obligations.ClassifyByReadyAndSyncBits : Prop :=
  (∀ (p : Params) (st : Status),
    (st.getLsbD p.srTxRdy = false → classify p st .tx = none) ∧
    (st.getLsbD p.srTxRdy = true → st.getLsbD p.srTxSyn = true → classify p st .tx = some .ch1) ∧
    (st.getLsbD p.srTxRdy = true → st.getLsbD p.srTxSyn = false → classify p st .tx = some .ch2) ∧
    (st.getLsbD p.srRxRdy = false → classify p st .rx = none) ∧
    (st.getLsbD p.srRxRdy = true → st.getLsbD p.srRxSyn = true → classify p st .rx = some .ch1) ∧
    (st.getLsbD p.srRxRdy = true → st.getLsbD p.srRxSyn = false → classify p st .rx = some .ch2)) ∧
  channelCode .ch1 = 0#1 ∧ channelCode .ch2 = 1#1

/-- An accepted IRQ latches the status word read once and makes the transmit call, else the receive call, else none. Formalises R152, R154, R155. -/
def Obligations.IrqServesTransmitThenReceive : Prop :=
  (∀ (s : State) (st : Status), s.svc = .idle →
    (∀ ch, classify s.params st .tx = some ch → s.tx.cb ≠ 0#32 →
      exec (.irq st) s = .next { s with slatch := st, svc := .txCall, out := s.out ++ [.statusRead, .call .tx s.tx.cb ch] }) ∧
    (∀ ch, (classify s.params st .tx = none ∨ s.tx.cb = 0#32) → classify s.params st .rx = some ch → s.rx.cb ≠ 0#32 →
      exec (.irq st) s = .next { s with slatch := st, svc := .rxCall, out := s.out ++ [.statusRead, .call .rx s.rx.cb ch] }) ∧
    ((classify s.params st .tx = none ∨ s.tx.cb = 0#32) → (classify s.params st .rx = none ∨ s.rx.cb = 0#32) →
      exec (.irq st) s = .next { s with slatch := st, out := s.out ++ [.statusRead] })) ∧
  (∀ s : State, s.svc = .txCall →
    (∀ ch, classify s.params s.slatch .rx = some ch → s.rx.cb ≠ 0#32 →
      exec .ret s = .next { s with svc := .rxCall, out := s.out ++ [.call .rx s.rx.cb ch] }) ∧
    ((classify s.params s.slatch .rx = none ∨ s.rx.cb = 0#32) → exec .ret s = .next { s with svc := .idle })) ∧
  (∀ (s : State) (st : Status), s.svc ≠ .idle →
    ∃ t, exec (.irq st) s = .next t ∧ t.slatch = s.slatch ∧ t.svc = s.svc ∧ t.out = s.out) ∧
  decode 0x700000000401#48 = .instr (.irq 0x401#32) ∧
  (∀ s : State, s.svc = .idle → s.params = Params.default → s.tx.cb = 0x1000#32 → s.rx.cb = 0#32 →
    exec (.irq 0x401#32) s = .next { s with
      slatch := 0x401#32, svc := .txCall, out := s.out ++ [.statusRead, .call .tx 0x1000#32 .ch1] })

/-- RET resumes the service at the receive step after a transmit call and ends it after a receive call. Formalises R153. -/
def Obligations.RetResumesOrEndsTheService : Prop :=
  (∀ s : State, s.svc = .txCall →
    (∀ ch, classify s.params s.slatch .rx = some ch → s.rx.cb ≠ 0#32 →
      exec .ret s = .next { s with svc := .rxCall, out := s.out ++ [.call .rx s.rx.cb ch] }) ∧
    ((classify s.params s.slatch .rx = none ∨ s.rx.cb = 0#32) → exec .ret s = .next { s with svc := .idle })) ∧
  (∀ s : State, s.svc = .rxCall → exec .ret s = .next { s with svc := .idle }) ∧
  (∀ s : State, s.svc = .idle → exec .ret s = .refused .retWhileIdle) ∧
  decode 0x800000000000#48 = .instr .ret ∧
  (∀ s : State, s.svc = .txCall → s.params = Params.default → s.slatch = 0x401#32 →
    exec .ret s = .next { s with svc := .idle })

/-- RET while no service is in progress is refused. Formalises 60_exceptions.md rule R180 (refusal clause), 30_encoding.md rule R90. -/
def Obligations.RetWithoutACallIsRefused : Prop :=
  ∀ s : State, s.svc = .idle → exec .ret s = .refused .retWhileIdle

/-- An IRQ during a service changes no register and emits nothing: it stays at its port. That it keeps its place in the inbox is the model's choice (notes/assumptions/4.md). Formalises 60_exceptions.md rule R177, notes/assumptions/4.md (that it keeps its place is the model's choice). -/
def Obligations.IrqDuringAServiceWaits : Prop :=
  ∀ (s : State) (st : Status), s.svc ≠ .idle →
    exec (.irq st) s = .next { s with inbox := .word (encode (.irq st)) :: s.inbox }

/-- While a service is in progress no step latches a new status word or reads the status register. Formalises 60_exceptions.md rule R177, 20_memory.md rule R62. -/
def Obligations.NoSecondServiceBegins : Prop :=
  ∀ s t : State, s.svc ≠ .idle → (∀ left, nextInput s.svc s.inbox ≠ some (.resetPin, left)) → step s = .next t →
    t.slatch = s.slatch ∧ t.out.count .statusRead = s.out.count .statusRead

/-- With only interrupts arriving, a service whose callback does not return stays where it is. R162 says stuck, not faulted; that stuck is a step that leaves the whole state as it is, is the model's choice (notes/assumptions/3.md, 4.md, 19.md). Formalises 43_service.md rule R162, 60_exceptions.md rule R177, notes/assumptions/3.md, 4.md and 19.md (the step that changes nothing and the waiting IRQ are the model's choices). -/
def Obligations.CallbackThatNeverReturnsIsStuck : Prop :=
  ∀ (s : State) (sts : List Status), s.svc ≠ .idle → s.inbox = sts.map (fun st => .word (encode (.irq st))) →
    step s = .next s

/-- With both directions ready and registered, one service calls each callback exactly once, transmit before receive. Formalises R157. -/
def Obligations.BothReadyCallsEachOnceTransmitFirst : Prop :=
  ∀ (s : State) (st : Status) (c1 c2 : Channel), s.svc = .idle → s.tx.cb ≠ 0#32 → s.rx.cb ≠ 0#32 →
    classify s.params st .tx = some c1 → classify s.params st .rx = some c2 →
    ∃ s1 s2 s3, exec (.irq st) s = .next s1 ∧ exec .ret s1 = .next s2 ∧ exec .ret s2 = .next s3 ∧
      s1.out = s.out ++ [.statusRead, .call .tx s.tx.cb c1] ∧ s1.svc = .txCall ∧
      s2.out = s1.out ++ [.call .rx s.rx.cb c2] ∧ s2.svc = .rxCall ∧
      s3.out = s2.out ∧ s3.svc = .idle

/-- A ready event of a direction with no callback makes no call, and the service goes on. Formalises 43_service.md rule R158. -/
def Obligations.UnregisteredEventIsSkipped : Prop :=
  (∀ (s : State) (st : Status), s.svc = .idle → s.tx.cb = 0#32 → s.rx.cb = 0#32 →
    exec (.irq st) s = .next { s with slatch := st, out := s.out ++ [.statusRead] }) ∧
  (∀ (s : State) (st : Status), s.svc = .idle → s.tx.cb = 0#32 →
    (∀ ch, classify s.params st .rx = some ch → s.rx.cb ≠ 0#32 →
      exec (.irq st) s = .next { s with slatch := st, svc := .rxCall, out := s.out ++ [.statusRead, .call .rx s.rx.cb ch] }) ∧
    (classify s.params st .rx = none →
      exec (.irq st) s = .next { s with slatch := st, out := s.out ++ [.statusRead] })) ∧
  (∀ (s : State) (st : Status), s.svc = .idle → s.rx.cb = 0#32 →
    (∀ ch, classify s.params st .tx = some ch → s.tx.cb ≠ 0#32 →
      ∃ t, exec (.irq st) s = .next t ∧
        t = { s with slatch := st, svc := .txCall, out := s.out ++ [.statusRead, .call .tx s.tx.cb ch] } ∧
        exec .ret t = .next { t with svc := .idle }) ∧
    (classify s.params st .tx = none →
      exec (.irq st) s = .next { s with slatch := st, out := s.out ++ [.statusRead] })) ∧
  (∀ s : State, s.svc = .txCall → s.rx.cb = 0#32 → exec .ret s = .next { s with svc := .idle }) ∧
  (∀ (s : State) (st : Status) (d : Dir), s.svc = .idle → (s.regs d).cb = 0#32 →
    ∃ t calls, exec (.irq st) s = .next t ∧ t.out = s.out ++ [.statusRead] ++ calls ∧
      ∀ h ch, .call d h ch ∉ calls)

/-- A SETEN inside a service changes neither the call nor the phase its RET leads to. Formalises 41_gate_and_registration.md rule R131 (d), 60_exceptions.md rule R181. -/
def Obligations.DisableDoesNotCutAService : Prop :=
  ∀ (s : State) (d : Dir) (b : Bool), s.svc ≠ .idle →
    ∃ t u v, exec (.seten d b) s = .next t ∧ exec .ret t = .next u ∧ exec .ret s = .next v ∧
      u.out = v.out ∧ u.svc = v.svc

/-- A receive callback registered by the transmit callback is called by the receive step of the same service. Formalises 43_service.md rule R151, 41_gate_and_registration.md rule R133 (b). -/
def Obligations.HandleIsReadAtItsStep : Prop :=
  ∀ (s : State) (h : Handle) (ch : Channel), s.svc = .txCall → classify s.params s.slatch .rx = some ch →
    ∃ t u, exec (.setcb .rx h) s = .next t ∧ exec .ret t = .next u ∧
      (h ≠ 0#32 → u.out = s.out ++ [.call .rx h ch] ∧ u.svc = .rxCall) ∧
      (h = 0#32 → u.out = s.out ∧ u.svc = .idle)

/-- Every host command completes in every phase with the same effect. Formalises 60_exceptions.md rule R179 (first sentence), 10_state.md rule R42 (no host command reads SVC). -/
def Obligations.HostCommandsIgnoreThePhase : Prop :=
  ∀ (i : Instr) (s : State) (phase : Svc), (∀ st, i ≠ .irq st) → i ≠ .ret →
    ∃ t, exec i s = .next t ∧ t.svc = s.svc ∧ exec i { s with svc := phase } = .next { t with svc := phase }

/-- IRQ and RET consult only the latched status word and the callback handles. Formalises 43_service.md rule R156. -/
def Obligations.ServiceConsultsOnlyLatchAndCallbacks : Prop :=
  ∀ (i : Instr) (s s' : State), (i = .ret ∨ ∃ st, i = .irq st) →
    s'.svc = s.svc → s'.slatch = s.slatch → s'.tx.cb = s.tx.cb → s'.rx.cb = s.rx.cb → s'.params = s.params →
    s'.out = s.out →
    (∀ t, exec i s = .next t → ∃ t', exec i s' = .next t' ∧ t'.out = t.out ∧ t'.svc = t.svc ∧ t'.slatch = t.slatch) ∧
    (∀ r, exec i s = .refused r → exec i s' = .refused r)

/-- Each register is written only by the events the access table lists for it. Formalises 10_state.md rule R42 (written by). -/
def Obligations.RegistersWrittenOnlyByTheirEvents : Prop :=
  ∀ (i : Instr) (s t : State), exec i s = .next t →
    (∀ d : Dir,
      ((∀ am cm bpc, i ≠ configureInstr d am cm bpc) →
        (t.regs d).cd = (s.regs d).cd ∧ (t.regs d).fd = (s.regs d).fd ∧
        (t.regs d).cfgv = (s.regs d).cfgv ∧ (t.regs d).ien = (s.regs d).ien) ∧
      ((∀ b, i ≠ .seten d b) → (t.regs d).en = (s.regs d).en) ∧
      ((∀ h, i ≠ .setcb d h) → (t.regs d).cb = (s.regs d).cb)) ∧
    ((∀ st, i ≠ .irq st) → t.slatch = s.slatch ∧ t.inbox = s.inbox) ∧
    ((∀ st, i ≠ .irq st) → i ≠ .ret → t.svc = s.svc) ∧
    (i ≠ .rdsmp → t.rxAnswers = s.rxAnswers) ∧
    t.params = s.params

/-- No step commits a descriptor that selects output-clock generation or frame-sync output. Formalises R6. -/
def Obligations.NeverAMaster : Prop :=
  ∀ s t : State, step s = .next t →
    (∃ added, t.out = s.out ++ added ∧
      ∀ d cd fd, .commit d cd fd ∈ added → cdCko cd = 0#1 ∧ fdFsos fd = 0#1) ∧
    (∀ d : Dir,
      (((t.regs d).cd ≠ (s.regs d).cd → cdCko (t.regs d).cd = 0#1) ∧
        ((t.regs d).fd ≠ (s.regs d).fd → fdFsos (t.regs d).fd = 0#1)) ∨
      ((∃ left, nextInput s.svc s.inbox = some (.resetPin, left)) ∧ t.regs d = DirRegs.reset))

/-- A step reads the status register once if it accepts an IRQ and not at all otherwise. Formalises 20_memory.md rule R62, 60_exceptions.md rule R175. -/
def Obligations.OneStatusReadPerService : Prop :=
  ∀ s t : State, step s = .next t →
    (∀ ew left st, nextInput s.svc s.inbox = some (.word ew, left) → decode ew = .instr (.irq st) →
      t.out.count .statusRead = s.out.count .statusRead + 1 ∧ t.slatch = st) ∧
    ((∀ ew left st, nextInput s.svc s.inbox = some (.word ew, left) → decode ew ≠ .instr (.irq st)) →
      t.out.count .statusRead = s.out.count .statusRead)

/-- A step keeps the parameters and the output emitted so far. Both fields are the model's own (notes/assumptions/5.md, 6.md). Formalises 00_scope.md rules R12 and R17, notes/assumptions/5.md and 6.md (these fields are the model's own). -/
def Obligations.OutputOnlyGrowsAndParametersStay : Prop :=
  ∀ s t : State, step s = .next t → t.params = s.params ∧ ∃ added, t.out = s.out ++ added ∧ added.length ≤ 2

/-- Every instruction gives a next state in every state, but for RET while no service is in progress. An IRQ in a call phase is not accepted (R90, R177); that exec answers the state with the word waiting again is the model's choice (notes/assumptions/4.md). Formalises 60_exceptions.md rules R170, R177, R179 and R180, 30_encoding.md rule R90, 00_scope.md rule R18, notes/assumptions/4.md (exec of an IRQ that is not accepted is the model's choice). -/
def Obligations.OnlyRetWithoutACallStops : Prop :=
  ∀ (i : Instr) (s : State),
    (¬(i = .ret ∧ s.svc = .idle) → ∃ t, exec i s = .next t) ∧
    (∀ st, i = .irq st → s.svc ≠ .idle → exec i s = .next (s.holdBack i)) ∧
    (∀ r, exec i s = .refused r → i = .ret ∧ s.svc = .idle ∧ r = .retWhileIdle)

/-- Every step keeps the invariant of R45. Formalises 10_state.md rule R45. -/
def Obligations.StepKeepsRegistersLegal : Prop :=
  ∀ s t : State, RegistersLegal s → step s = .next t → RegistersLegal t

/-- The invariant of R45 holds at reset. Formalises 10_state.md rules R44 and R45. -/
def Obligations.ResetRegistersLegal : Prop :=
  ∀ (p : Params) (xs : List Input) (ws : List Word),
    RegistersLegal { State.reset with params := p, inbox := xs, rxAnswers := ws }

/-- In every state reachable from reset the invariant of R45 holds. Formalises R45. -/
def Obligations.ReachableRegistersLegal : Prop :=
  ∀ (n : Nat) (p : Params) (xs : List Input) (ws : List Word) (t : State),
    Sys2Proof.core.run n ({ State.reset with params := p, inbox := xs, rxAnswers := ws } : State) = .next t →
      RegistersLegal t

/-- Every step keeps: a callback runs only for a ready bit of the latched status word. Formalises 43_service.md rules R150, R154 and R155, 10_state.md rule R39. -/
def Obligations.StepKeepsServiceGrounded : Prop :=
  (∀ s t : State, ServiceGrounded s → step s = .next t → ServiceGrounded t) ∧ ServiceGrounded State.reset

/-- A host that registers before configuring and does not unregister an enabled direction keeps every enabled direction registered. Formalises 70_reset_and_hazards.md rules R197 and R201. -/
def Obligations.RegistrationDisciplineIsKept : Prop :=
  ∀ (i : Instr) (s t : State), RegisteredBeforeEnabled s → keepsRegistered i s = true → exec i s = .next t →
    RegisteredBeforeEnabled t

/-- Under registration before enabling, each requested direction is called within the service: never a missed event. Formalises 70_reset_and_hazards.md rule R201, 60_exceptions.md rule R172, 43_service.md rules R154 and R155. -/
def Obligations.RequestedEventOfRegisteredHostIsCalled : Prop :=
  (∀ (s : State) (st : Status) (d : Dir), RegisteredBeforeEnabled s → s.svc = .idle →
    (s.regs d).ien = true → readyBit s.params st d = true →
    (s.regs d).cb ≠ 0#32 ∧
    ∃ t ch, classify s.params st d = some ch ∧ exec (.irq st) s = .next t ∧
      ((t.out = s.out ++ [.statusRead, .call d (s.regs d).cb ch] ∧ t.svc = callPhase d) ∨
       (d = .rx ∧ ∃ c u, classify s.params st .tx = some c ∧ s.tx.cb ≠ 0#32 ∧
          t.out = s.out ++ [.statusRead, .call .tx s.tx.cb c] ∧ t.svc = .txCall ∧
          exec .ret t = .next u ∧ u.out = t.out ++ [.call .rx s.rx.cb ch] ∧ u.svc = .rxCall))) ∧
  (∀ (s : State) (st : Status), requested s st = true ↔
    ∃ d, (s.regs d).ien = true ∧ readyBit s.params st d = true)

/-- Stereo ready events classify as channel-1, channel-2 alternately, mono ones as channel-1. Formalises 43_service.md rule R160, 20_memory.md rule R74 (premise). -/
def Obligations.NormalSequencesClassifyByPeriod : Prop :=
  (∀ (p : Params) (d : Dir) (sts : List Status), stereoPattern p d true sts = true →
    sts.map (fun st => classify p st d) = alternating .ch1 sts.length) ∧
  (∀ (p : Params) (d : Dir) (sts : List Status), monoPattern p d sts = true →
    sts.map (fun st => classify p st d) = List.replicate sts.length (some .ch1))

/-- A service racing with a main-context SETCB calls the old handle or the new one. That arrival order decides the race is the model's choice (notes/assumptions/10.md). Formalises 70_reset_and_hazards.md rule R202, 41_gate_and_registration.md rule R133 (c), notes/assumptions/10.md. -/
def Obligations.RacingSetcbIsOldOrNew : Prop :=
  ∀ (s : State) (d : Dir) (h : Handle) (st : Status) (ch : Channel),
    s.svc = .idle → (d = .rx → classify s.params st .tx = none ∨ s.tx.cb = 0#32) → classify s.params st d = some ch →
    h ≠ 0#32 → (s.regs d).cb ≠ 0#32 →
    (∃ t u, exec (.setcb d h) s = .next t ∧ exec (.irq st) t = .next u ∧
      u.out = s.out ++ [.statusRead, .call d h ch]) ∧
    (∃ t u, exec (.irq st) s = .next t ∧ exec (.setcb d h) t = .next u ∧
      u.out = s.out ++ [.statusRead, .call d (s.regs d).cb ch])

/-- The level outputs change only by configure commands and SETEN, and SETEN's level is visible at once. Formalises 10_state.md rule R43, 60_exceptions.md rule R175, 41_gate_and_registration.md rule R130. -/
def Obligations.LevelOutputsFollowConfigureAndEnable : Prop :=
  ∀ (i : Instr) (s t : State) (d : Dir), exec i s = .next t →
    ((∀ am cm bpc, i ≠ configureInstr d am cm bpc) → (∀ b, i ≠ .seten d b) → t.levels d = s.levels d) ∧
    (∀ b, i = .seten d b → t.levels d = { s.levels d with en := b })

/-- An instruction issued within the host's obligations completes, is accepted, and leaves no frame length unspecified. Formalises 70_reset_and_hazards.md rules R197 to R205, 60_exceptions.md rules R177 and R180, 40_mode_resolver.md rule R108. -/
def Obligations.HostThatKeepsItsObligationsIsNeverStopped : Prop :=
  ∀ (i : Instr) (s : State), hostKeeps i s = true →
    ∃ t, exec i s = .next t ∧ (∀ st, i = .irq st → t.slatch = st) ∧ (i ≠ .rdsmp → t.draws = s.draws)
end

