-- ==== Sys2Proof/Laws/Decode.lean ====
section
/-! SUPPORT. How the decoder reads a word given as command word and operand. -/

namespace Sys2Proof

/-- `CW` of `{CW, OP}`. -/
theorem commandOf_append (cw : CommandWord) (op : BitVec 32) : commandOf (cw ++ op : BitVec (16 + 32)) = cw := by
  ext i hi
  rw [commandOf, BitVec.getElem_extractLsb']
  exact BitVec.getLsbD_append.trans (by simp [hi])

/-- `OP` of `{CW, OP}`. -/
theorem operandOf_append (cw : CommandWord) (op : BitVec 32) : operandOf (cw ++ op : BitVec (16 + 32)) = op := by
  ext i hi
  rw [operandOf, BitVec.getElem_extractLsb']
  exact BitVec.getLsbD_append.trans (by simp [hi, BitVec.getLsbD_eq_getElem])

/-- Every event word is `{CW, OP}` (R80). -/
theorem eventWord_eq_append (ew : EventWord) : ew = (commandOf ew ++ operandOf ew : BitVec (16 + 32)) := by
  apply BitVec.eq_of_getLsbD_eq
  intro i hi
  rw [BitVec.getLsbD_append]
  simp only [operandOf, commandOf, BitVec.getLsbD_extractLsb']
  split
  · simp_all
  · have h1 : i - 32 < 16 := by omega
    have h2 : 32 + (i - 32) = i := by omega
    simp [h1, h2]

/-- Two event words are equal exactly when their command words and operands are. -/
theorem append_eq_append_iff (a c : CommandWord) (b d : BitVec 32) :
    (a ++ b : BitVec (16 + 32)) = (c ++ d : BitVec (16 + 32)) ↔ a = c ∧ b = d := by
  refine ⟨fun h => ⟨?_, ?_⟩, by rintro ⟨rfl, rfl⟩; rfl⟩
  · rw [← commandOf_append a b, h, commandOf_append]
  · rw [← operandOf_append a b, h, operandOf_append]

/-- A command word is its opcode above its twelve lower bits (R81). -/
theorem commandWord_eq_append (cw : CommandWord) :
    cw = (cw.extractLsb' 12 4 ++ cw.extractLsb' 0 12 : BitVec (4 + 12)) := by
  apply BitVec.eq_of_getLsbD_eq
  intro i hi
  rw [BitVec.getLsbD_append]
  simp only [BitVec.getLsbD_extractLsb']
  split
  · simp_all
  · have h1 : i - 12 < 4 := by omega
    have h2 : 12 + (i - 12) = i := by omega
    simp [h1, h2]

theorem opcodeOf_append (cw : CommandWord) (op : BitVec 32) :
    opcodeOf (cw ++ op : BitVec (16 + 32)) = cw.extractLsb' 12 4 := by
  rw [opcodeOf, commandOf_append]

theorem requireZero_append (mask cw : CommandWord) (op : BitVec 32) (i : Instr) :
    requireZero mask (cw ++ op : BitVec (16 + 32)) i =
      if cw &&& mask = 0#16 then .instr i else .reserved .mustBeZero := by
  rw [requireZero, commandOf_append]

/-- A word the decoder accepts reads as the instruction with its operands in place: `requireZero` accepts exactly when the
masked bits are 0. -/
theorem requireZero_eq_instr_iff (mask : CommandWord) (ew : EventWord) (i j : Instr) :
    requireZero mask ew i = .instr j ↔ commandOf ew &&& mask = 0#16 ∧ i = j := by
  unfold requireZero
  split <;> simp_all

end Sys2Proof
end

