-- ==== Sys2Proof/Laws/State.lean ====
section
/-! SUPPORT. One lemma per field per update of the state, so that no proof unfolds a record update. -/

namespace Sys2Proof.Machine

/-! ## The two directions -/

@[simp] theorem State.regs_tx (s : State) : s.regs .tx = s.tx := rfl
@[simp] theorem State.regs_rx (s : State) : s.regs .rx = s.rx := rfl

@[simp] theorem State.setRegs_tx_tx (s : State) (r : DirRegs) : (s.setRegs .tx r).tx = r := rfl
@[simp] theorem State.setRegs_tx_rx (s : State) (r : DirRegs) : (s.setRegs .tx r).rx = s.rx := rfl
@[simp] theorem State.setRegs_rx_tx (s : State) (r : DirRegs) : (s.setRegs .rx r).tx = s.tx := rfl
@[simp] theorem State.setRegs_rx_rx (s : State) (r : DirRegs) : (s.setRegs .rx r).rx = r := rfl

@[simp] theorem State.regs_setRegs_same (s : State) (d : Dir) (r : DirRegs) : (s.setRegs d r).regs d = r := by
  cases d <;> rfl

theorem State.regs_setRegs_of_ne (s : State) {d e : Dir} (r : DirRegs) (h : e ≠ d) :
    (s.setRegs d r).regs e = s.regs e := by
  cases d <;> cases e <;> first | rfl | exact absurd rfl h

@[simp] theorem State.regs_setRegs_other (s : State) (d : Dir) (r : DirRegs) :
    (s.setRegs d r).regs (other d) = s.regs (other d) := by
  cases d <;> rfl

@[simp] theorem State.setRegs_slatch (s : State) (d : Dir) (r : DirRegs) : (s.setRegs d r).slatch = s.slatch := by
  cases d <;> rfl
@[simp] theorem State.setRegs_svc (s : State) (d : Dir) (r : DirRegs) : (s.setRegs d r).svc = s.svc := by
  cases d <;> rfl
@[simp] theorem State.setRegs_params (s : State) (d : Dir) (r : DirRegs) : (s.setRegs d r).params = s.params := by
  cases d <;> rfl
@[simp] theorem State.setRegs_inbox (s : State) (d : Dir) (r : DirRegs) : (s.setRegs d r).inbox = s.inbox := by
  cases d <;> rfl
@[simp] theorem State.setRegs_rxAnswers (s : State) (d : Dir) (r : DirRegs) : (s.setRegs d r).rxAnswers = s.rxAnswers := by
  cases d <;> rfl
@[simp] theorem State.setRegs_out (s : State) (d : Dir) (r : DirRegs) : (s.setRegs d r).out = s.out := by
  cases d <;> rfl
@[simp] theorem State.setRegs_draws (s : State) (d : Dir) (r : DirRegs) : (s.setRegs d r).draws = s.draws := by
  cases d <;> rfl

/-! ## Updates that write registers of one direction -/

@[simp] theorem State.regs_setEn_same (s : State) (d : Dir) (b : Bool) :
    (s.setEn d b).regs d = { s.regs d with en := b } := by
  cases d <;> rfl
@[simp] theorem State.regs_setEn_other (s : State) (d : Dir) (b : Bool) :
    (s.setEn d b).regs (other d) = s.regs (other d) := by
  cases d <;> rfl
@[simp] theorem State.setEn_tx_tx (s : State) (b : Bool) :
    (s.setEn .tx b).tx = { s.tx with en := b } := rfl
@[simp] theorem State.setEn_tx_rx (s : State) (b : Bool) : (s.setEn .tx b).rx = s.rx := rfl
@[simp] theorem State.setEn_rx_rx (s : State) (b : Bool) :
    (s.setEn .rx b).rx = { s.rx with en := b } := rfl
@[simp] theorem State.setEn_rx_tx (s : State) (b : Bool) : (s.setEn .rx b).tx = s.tx := rfl
@[simp] theorem State.setEn_slatch (s : State) (d : Dir) (b : Bool) : (s.setEn d b).slatch = s.slatch := by
  cases d <;> rfl
@[simp] theorem State.setEn_svc (s : State) (d : Dir) (b : Bool) : (s.setEn d b).svc = s.svc := by
  cases d <;> rfl
@[simp] theorem State.setEn_params (s : State) (d : Dir) (b : Bool) : (s.setEn d b).params = s.params := by
  cases d <;> rfl
@[simp] theorem State.setEn_inbox (s : State) (d : Dir) (b : Bool) : (s.setEn d b).inbox = s.inbox := by
  cases d <;> rfl
@[simp] theorem State.setEn_rxAnswers (s : State) (d : Dir) (b : Bool) : (s.setEn d b).rxAnswers = s.rxAnswers := by
  cases d <;> rfl
@[simp] theorem State.setEn_out (s : State) (d : Dir) (b : Bool) : (s.setEn d b).out = s.out := by
  cases d <;> rfl
@[simp] theorem State.setEn_draws (s : State) (d : Dir) (b : Bool) : (s.setEn d b).draws = s.draws := by
  cases d <;> rfl

@[simp] theorem State.regs_setCb_same (s : State) (d : Dir) (h : Handle) :
    (s.setCb d h).regs d = { s.regs d with cb := h } := by
  cases d <;> rfl
@[simp] theorem State.regs_setCb_other (s : State) (d : Dir) (h : Handle) :
    (s.setCb d h).regs (other d) = s.regs (other d) := by
  cases d <;> rfl
@[simp] theorem State.setCb_tx_tx (s : State) (h : Handle) :
    (s.setCb .tx h).tx = { s.tx with cb := h } := rfl
@[simp] theorem State.setCb_tx_rx (s : State) (h : Handle) : (s.setCb .tx h).rx = s.rx := rfl
@[simp] theorem State.setCb_rx_rx (s : State) (h : Handle) :
    (s.setCb .rx h).rx = { s.rx with cb := h } := rfl
@[simp] theorem State.setCb_rx_tx (s : State) (h : Handle) : (s.setCb .rx h).tx = s.tx := rfl
@[simp] theorem State.setCb_slatch (s : State) (d : Dir) (h : Handle) : (s.setCb d h).slatch = s.slatch := by
  cases d <;> rfl
@[simp] theorem State.setCb_svc (s : State) (d : Dir) (h : Handle) : (s.setCb d h).svc = s.svc := by
  cases d <;> rfl
@[simp] theorem State.setCb_params (s : State) (d : Dir) (h : Handle) : (s.setCb d h).params = s.params := by
  cases d <;> rfl
@[simp] theorem State.setCb_inbox (s : State) (d : Dir) (h : Handle) : (s.setCb d h).inbox = s.inbox := by
  cases d <;> rfl
@[simp] theorem State.setCb_rxAnswers (s : State) (d : Dir) (h : Handle) : (s.setCb d h).rxAnswers = s.rxAnswers := by
  cases d <;> rfl
@[simp] theorem State.setCb_out (s : State) (d : Dir) (h : Handle) : (s.setCb d h).out = s.out := by
  cases d <;> rfl
@[simp] theorem State.setCb_draws (s : State) (d : Dir) (h : Handle) : (s.setCb d h).draws = s.draws := by
  cases d <;> rfl

@[simp] theorem State.regs_setDescriptors_same (s : State) (d : Dir) (cd fd : Descriptor) :
    (s.setDescriptors d cd fd).regs d = { s.regs d with cd := cd, fd := fd, cfgv := true } := by
  cases d <;> rfl
@[simp] theorem State.regs_setDescriptors_other (s : State) (d : Dir) (cd fd : Descriptor) :
    (s.setDescriptors d cd fd).regs (other d) = s.regs (other d) := by
  cases d <;> rfl
@[simp] theorem State.setDescriptors_tx_tx (s : State) (cd fd : Descriptor) :
    (s.setDescriptors .tx cd fd).tx = { s.tx with cd := cd, fd := fd, cfgv := true } := rfl
@[simp] theorem State.setDescriptors_tx_rx (s : State) (cd fd : Descriptor) : (s.setDescriptors .tx cd fd).rx = s.rx := rfl
@[simp] theorem State.setDescriptors_rx_rx (s : State) (cd fd : Descriptor) :
    (s.setDescriptors .rx cd fd).rx = { s.rx with cd := cd, fd := fd, cfgv := true } := rfl
@[simp] theorem State.setDescriptors_rx_tx (s : State) (cd fd : Descriptor) : (s.setDescriptors .rx cd fd).tx = s.tx := rfl
@[simp] theorem State.setDescriptors_slatch (s : State) (d : Dir) (cd fd : Descriptor) : (s.setDescriptors d cd fd).slatch = s.slatch := by
  cases d <;> rfl
@[simp] theorem State.setDescriptors_svc (s : State) (d : Dir) (cd fd : Descriptor) : (s.setDescriptors d cd fd).svc = s.svc := by
  cases d <;> rfl
@[simp] theorem State.setDescriptors_params (s : State) (d : Dir) (cd fd : Descriptor) : (s.setDescriptors d cd fd).params = s.params := by
  cases d <;> rfl
@[simp] theorem State.setDescriptors_inbox (s : State) (d : Dir) (cd fd : Descriptor) : (s.setDescriptors d cd fd).inbox = s.inbox := by
  cases d <;> rfl
@[simp] theorem State.setDescriptors_rxAnswers (s : State) (d : Dir) (cd fd : Descriptor) : (s.setDescriptors d cd fd).rxAnswers = s.rxAnswers := by
  cases d <;> rfl
@[simp] theorem State.setDescriptors_out (s : State) (d : Dir) (cd fd : Descriptor) : (s.setDescriptors d cd fd).out = s.out := by
  cases d <;> rfl
@[simp] theorem State.setDescriptors_draws (s : State) (d : Dir) (cd fd : Descriptor) : (s.setDescriptors d cd fd).draws = s.draws := by
  cases d <;> rfl

@[simp] theorem State.regs_enableReady_same (s : State) (d : Dir) :
    (s.enableReady d).regs d = { s.regs d with ien := true } := by
  cases d <;> rfl
@[simp] theorem State.regs_enableReady_other (s : State) (d : Dir) :
    (s.enableReady d).regs (other d) = s.regs (other d) := by
  cases d <;> rfl
@[simp] theorem State.enableReady_tx_tx (s : State) :
    (s.enableReady .tx).tx = { s.tx with ien := true } := rfl
@[simp] theorem State.enableReady_tx_rx (s : State) : (s.enableReady .tx).rx = s.rx := rfl
@[simp] theorem State.enableReady_rx_rx (s : State) :
    (s.enableReady .rx).rx = { s.rx with ien := true } := rfl
@[simp] theorem State.enableReady_rx_tx (s : State) : (s.enableReady .rx).tx = s.tx := rfl
@[simp] theorem State.enableReady_slatch (s : State) (d : Dir) : (s.enableReady d).slatch = s.slatch := by
  cases d <;> rfl
@[simp] theorem State.enableReady_svc (s : State) (d : Dir) : (s.enableReady d).svc = s.svc := by
  cases d <;> rfl
@[simp] theorem State.enableReady_params (s : State) (d : Dir) : (s.enableReady d).params = s.params := by
  cases d <;> rfl
@[simp] theorem State.enableReady_inbox (s : State) (d : Dir) : (s.enableReady d).inbox = s.inbox := by
  cases d <;> rfl
@[simp] theorem State.enableReady_rxAnswers (s : State) (d : Dir) : (s.enableReady d).rxAnswers = s.rxAnswers := by
  cases d <;> rfl
@[simp] theorem State.enableReady_out (s : State) (d : Dir) : (s.enableReady d).out = s.out := by
  cases d <;> rfl
@[simp] theorem State.enableReady_draws (s : State) (d : Dir) : (s.enableReady d).draws = s.draws := by
  cases d <;> rfl

/-! ## Updates of the other fields -/

@[simp] theorem State.emit_tx (s : State) (e : OutEvent) : (s.emit e).tx = s.tx := rfl
@[simp] theorem State.emit_rx (s : State) (e : OutEvent) : (s.emit e).rx = s.rx := rfl
@[simp] theorem State.emit_slatch (s : State) (e : OutEvent) : (s.emit e).slatch = s.slatch := rfl
@[simp] theorem State.emit_svc (s : State) (e : OutEvent) : (s.emit e).svc = s.svc := rfl
@[simp] theorem State.emit_params (s : State) (e : OutEvent) : (s.emit e).params = s.params := rfl
@[simp] theorem State.emit_inbox (s : State) (e : OutEvent) : (s.emit e).inbox = s.inbox := rfl
@[simp] theorem State.emit_rxAnswers (s : State) (e : OutEvent) : (s.emit e).rxAnswers = s.rxAnswers := rfl
@[simp] theorem State.emit_out (s : State) (e : OutEvent) : (s.emit e).out = s.out ++ [e] := rfl
@[simp] theorem State.emit_draws (s : State) (e : OutEvent) : (s.emit e).draws = s.draws := rfl

@[simp] theorem State.latchStatus_tx (s : State) (st : Status) : (s.latchStatus st).tx = s.tx := rfl
@[simp] theorem State.latchStatus_rx (s : State) (st : Status) : (s.latchStatus st).rx = s.rx := rfl
@[simp] theorem State.latchStatus_slatch (s : State) (st : Status) : (s.latchStatus st).slatch = st := rfl
@[simp] theorem State.latchStatus_svc (s : State) (st : Status) : (s.latchStatus st).svc = s.svc := rfl
@[simp] theorem State.latchStatus_params (s : State) (st : Status) : (s.latchStatus st).params = s.params := rfl
@[simp] theorem State.latchStatus_inbox (s : State) (st : Status) : (s.latchStatus st).inbox = s.inbox := rfl
@[simp] theorem State.latchStatus_rxAnswers (s : State) (st : Status) : (s.latchStatus st).rxAnswers = s.rxAnswers := rfl
@[simp] theorem State.latchStatus_out (s : State) (st : Status) : (s.latchStatus st).out = s.out ++ [.statusRead] := rfl
@[simp] theorem State.latchStatus_draws (s : State) (st : Status) : (s.latchStatus st).draws = s.draws := rfl

@[simp] theorem State.txDataWrite_tx (s : State) (w : Word) : (s.txDataWrite w).tx = s.tx := rfl
@[simp] theorem State.txDataWrite_rx (s : State) (w : Word) : (s.txDataWrite w).rx = s.rx := rfl
@[simp] theorem State.txDataWrite_slatch (s : State) (w : Word) : (s.txDataWrite w).slatch = s.slatch := rfl
@[simp] theorem State.txDataWrite_svc (s : State) (w : Word) : (s.txDataWrite w).svc = s.svc := rfl
@[simp] theorem State.txDataWrite_params (s : State) (w : Word) : (s.txDataWrite w).params = s.params := rfl
@[simp] theorem State.txDataWrite_inbox (s : State) (w : Word) : (s.txDataWrite w).inbox = s.inbox := rfl
@[simp] theorem State.txDataWrite_rxAnswers (s : State) (w : Word) : (s.txDataWrite w).rxAnswers = s.rxAnswers := rfl
@[simp] theorem State.txDataWrite_out (s : State) (w : Word) : (s.txDataWrite w).out = s.out ++ [.txDataWrite w] := rfl
@[simp] theorem State.txDataWrite_draws (s : State) (w : Word) : (s.txDataWrite w).draws = s.draws := rfl

@[simp] theorem State.respond_tx (s : State) (w : Word) : (s.respond w).tx = s.tx := rfl
@[simp] theorem State.respond_rx (s : State) (w : Word) : (s.respond w).rx = s.rx := rfl
@[simp] theorem State.respond_slatch (s : State) (w : Word) : (s.respond w).slatch = s.slatch := rfl
@[simp] theorem State.respond_svc (s : State) (w : Word) : (s.respond w).svc = s.svc := rfl
@[simp] theorem State.respond_params (s : State) (w : Word) : (s.respond w).params = s.params := rfl
@[simp] theorem State.respond_inbox (s : State) (w : Word) : (s.respond w).inbox = s.inbox := rfl
@[simp] theorem State.respond_rxAnswers (s : State) (w : Word) : (s.respond w).rxAnswers = s.rxAnswers := rfl
@[simp] theorem State.respond_out (s : State) (w : Word) : (s.respond w).out = s.out ++ [.respond w] := rfl
@[simp] theorem State.respond_draws (s : State) (w : Word) : (s.respond w).draws = s.draws := rfl

@[simp] theorem State.call_tx (s : State) (d : Dir) (h : Handle) (ch : Channel) : (s.call d h ch).tx = s.tx := rfl
@[simp] theorem State.call_rx (s : State) (d : Dir) (h : Handle) (ch : Channel) : (s.call d h ch).rx = s.rx := rfl
@[simp] theorem State.call_slatch (s : State) (d : Dir) (h : Handle) (ch : Channel) : (s.call d h ch).slatch = s.slatch := rfl
@[simp] theorem State.call_svc (s : State) (d : Dir) (h : Handle) (ch : Channel) : (s.call d h ch).svc = callPhase d := rfl
@[simp] theorem State.call_params (s : State) (d : Dir) (h : Handle) (ch : Channel) : (s.call d h ch).params = s.params := rfl
@[simp] theorem State.call_inbox (s : State) (d : Dir) (h : Handle) (ch : Channel) : (s.call d h ch).inbox = s.inbox := rfl
@[simp] theorem State.call_rxAnswers (s : State) (d : Dir) (h : Handle) (ch : Channel) : (s.call d h ch).rxAnswers = s.rxAnswers := rfl
@[simp] theorem State.call_out (s : State) (d : Dir) (h : Handle) (ch : Channel) : (s.call d h ch).out = s.out ++ [.call d h ch] := rfl
@[simp] theorem State.call_draws (s : State) (d : Dir) (h : Handle) (ch : Channel) : (s.call d h ch).draws = s.draws := rfl

@[simp] theorem State.endService_tx (s : State) : (s.endService).tx = s.tx := rfl
@[simp] theorem State.endService_rx (s : State) : (s.endService).rx = s.rx := rfl
@[simp] theorem State.endService_slatch (s : State) : (s.endService).slatch = s.slatch := rfl
@[simp] theorem State.endService_svc (s : State) : (s.endService).svc = .idle := rfl
@[simp] theorem State.endService_params (s : State) : (s.endService).params = s.params := rfl
@[simp] theorem State.endService_inbox (s : State) : (s.endService).inbox = s.inbox := rfl
@[simp] theorem State.endService_rxAnswers (s : State) : (s.endService).rxAnswers = s.rxAnswers := rfl
@[simp] theorem State.endService_out (s : State) : (s.endService).out = s.out := rfl
@[simp] theorem State.endService_draws (s : State) : (s.endService).draws = s.draws := rfl

@[simp] theorem State.assertReset_tx (s : State) : (s.assertReset).tx = DirRegs.reset := rfl
@[simp] theorem State.assertReset_rx (s : State) : (s.assertReset).rx = DirRegs.reset := rfl
@[simp] theorem State.assertReset_slatch (s : State) : (s.assertReset).slatch = 0#32 := rfl
@[simp] theorem State.assertReset_svc (s : State) : (s.assertReset).svc = .idle := rfl
@[simp] theorem State.assertReset_params (s : State) : (s.assertReset).params = s.params := rfl
@[simp] theorem State.assertReset_inbox (s : State) : (s.assertReset).inbox = s.inbox := rfl
@[simp] theorem State.assertReset_rxAnswers (s : State) : (s.assertReset).rxAnswers = s.rxAnswers := rfl
@[simp] theorem State.assertReset_out (s : State) : (s.assertReset).out = s.out := rfl
@[simp] theorem State.assertReset_draws (s : State) : (s.assertReset).draws = s.draws := rfl

@[simp] theorem State.holdBack_tx (s : State) (i : Instr) : (s.holdBack i).tx = s.tx := rfl
@[simp] theorem State.holdBack_rx (s : State) (i : Instr) : (s.holdBack i).rx = s.rx := rfl
@[simp] theorem State.holdBack_slatch (s : State) (i : Instr) : (s.holdBack i).slatch = s.slatch := rfl
@[simp] theorem State.holdBack_svc (s : State) (i : Instr) : (s.holdBack i).svc = s.svc := rfl
@[simp] theorem State.holdBack_params (s : State) (i : Instr) : (s.holdBack i).params = s.params := rfl
@[simp] theorem State.holdBack_inbox (s : State) (i : Instr) : (s.holdBack i).inbox = .word (encode i) :: s.inbox := rfl
@[simp] theorem State.holdBack_rxAnswers (s : State) (i : Instr) : (s.holdBack i).rxAnswers = s.rxAnswers := rfl
@[simp] theorem State.holdBack_out (s : State) (i : Instr) : (s.holdBack i).out = s.out := rfl
@[simp] theorem State.holdBack_draws (s : State) (i : Instr) : (s.holdBack i).draws = s.draws := rfl

/-! ## Reads of the receive data register, and the draw of a frame length -/

@[simp] theorem State.rxDataRead_tx (s : State) : s.rxDataRead.tx = s.tx := by
  unfold State.rxDataRead; split <;> rfl
@[simp] theorem State.rxDataRead_rx (s : State) : s.rxDataRead.rx = s.rx := by
  unfold State.rxDataRead; split <;> rfl
@[simp] theorem State.rxDataRead_slatch (s : State) : s.rxDataRead.slatch = s.slatch := by
  unfold State.rxDataRead; split <;> rfl
@[simp] theorem State.rxDataRead_svc (s : State) : s.rxDataRead.svc = s.svc := by
  unfold State.rxDataRead; split <;> rfl
@[simp] theorem State.rxDataRead_params (s : State) : s.rxDataRead.params = s.params := by
  unfold State.rxDataRead; split <;> rfl
@[simp] theorem State.rxDataRead_inbox (s : State) : s.rxDataRead.inbox = s.inbox := by
  unfold State.rxDataRead; split <;> rfl
@[simp] theorem State.rxDataRead_out (s : State) : s.rxDataRead.out = s.out ++ [.rxDataRead] := by
  unfold State.rxDataRead; split <;> rfl
@[simp] theorem State.rxDataRead_rxAnswers (s : State) : s.rxDataRead.rxAnswers = s.rxAnswers.tail := by
  unfold State.rxDataRead; split <;> simp_all

@[simp] theorem State.drawDatlen_tx (s : State) (bpc : BitsPerChannel) : (s.drawDatlen bpc).tx = s.tx := by
  unfold State.drawDatlen; split <;> rfl
@[simp] theorem State.drawDatlen_rx (s : State) (bpc : BitsPerChannel) : (s.drawDatlen bpc).rx = s.rx := by
  unfold State.drawDatlen; split <;> rfl
@[simp] theorem State.drawDatlen_slatch (s : State) (bpc : BitsPerChannel) : (s.drawDatlen bpc).slatch = s.slatch := by
  unfold State.drawDatlen; split <;> rfl
@[simp] theorem State.drawDatlen_svc (s : State) (bpc : BitsPerChannel) : (s.drawDatlen bpc).svc = s.svc := by
  unfold State.drawDatlen; split <;> rfl
@[simp] theorem State.drawDatlen_params (s : State) (bpc : BitsPerChannel) : (s.drawDatlen bpc).params = s.params := by
  unfold State.drawDatlen; split <;> rfl
@[simp] theorem State.drawDatlen_inbox (s : State) (bpc : BitsPerChannel) : (s.drawDatlen bpc).inbox = s.inbox := by
  unfold State.drawDatlen; split <;> rfl
@[simp] theorem State.drawDatlen_rxAnswers (s : State) (bpc : BitsPerChannel) : (s.drawDatlen bpc).rxAnswers = s.rxAnswers := by
  unfold State.drawDatlen; split <;> rfl
@[simp] theorem State.drawDatlen_out (s : State) (bpc : BitsPerChannel) : (s.drawDatlen bpc).out = s.out := by
  unfold State.drawDatlen; split <;> rfl

theorem State.drawDatlen_of_defined (s : State) {bpc : BitsPerChannel} (h : bpcDefined bpc = true) :
    s.drawDatlen bpc = s := by
  simp [State.drawDatlen, h]

end Sys2Proof.Machine
end

