-- ==== Sys2Proof/Laws/Ops.lean ====
section
/-! SUPPORT. For each shared operation, what it can do, said once. -/

namespace Sys2Proof.Machine

/-! ## Classification and the call of one step -/

theorem classify_isSome (p : Params) (st : Status) (d : Dir) : (classify p st d).isSome = readyBit p st d := by
  unfold classify
  cases readyBit p st d <;> cases syncBit p st d <;> rfl

/-- A pending call is a call of the registered callback for a ready bit of the latched word. -/
theorem State.pendingCall_spec {s : State} {d : Dir} {h : Handle} {ch : Channel}
    (hc : s.pendingCall d = some (h, ch)) :
    h = (s.regs d).cb ∧ h ≠ Config.nullHandle ∧ classify s.params s.slatch d = some ch := by
  unfold State.pendingCall at hc
  split at hc
  · exact absurd hc (by simp)
  · rename_i c hcl
    split at hc
    · exact absurd hc (by simp)
    · rename_i hn
      obtain ⟨rfl, rfl⟩ : (s.regs d).cb = h ∧ c = ch := by simpa using hc
      exact ⟨rfl, hn, hcl⟩

/-- With no pending call, the direction is not ready or no callback is registered. -/
theorem State.pendingCall_none {s : State} {d : Dir} (hc : s.pendingCall d = none) :
    classify s.params s.slatch d = none ∨ (s.regs d).cb = Config.nullHandle := by
  unfold State.pendingCall at hc
  split at hc
  · exact .inl ‹_›
  · split at hc
    · exact .inr ‹_›
    · exact absurd hc (by simp)

/-- The pending call depends on the parameters, the latched word and the direction's handle alone (R156). -/
theorem State.pendingCall_congr {s t : State} {d : Dir} (hp : s.params = t.params) (hl : s.slatch = t.slatch)
    (hc : (s.regs d).cb = (t.regs d).cb) : s.pendingCall d = t.pendingCall d := by
  simp only [State.pendingCall, hp, hl, hc]

/-! ## The two steps of a service -/

/-- `ServiceRx` makes the receive call or ends the service. -/
theorem State.serviceRx_cases (s : State) :
    (∃ h ch, s.pendingCall .rx = some (h, ch) ∧ s.serviceRx = s.call .rx h ch) ∨
    (s.pendingCall .rx = none ∧ s.serviceRx = s.endService) := by
  unfold State.serviceRx
  cases hc : s.pendingCall .rx with
  | none => exact .inr ⟨rfl, rfl⟩
  | some c => exact .inl ⟨c.1, c.2, rfl, rfl⟩

/-- `ServiceTx` makes the transmit call or goes on to `ServiceRx`. -/
theorem State.serviceTx_cases (s : State) :
    (∃ h ch, s.pendingCall .tx = some (h, ch) ∧ s.serviceTx = s.call .tx h ch) ∨
    (s.pendingCall .tx = none ∧ s.serviceTx = s.serviceRx) := by
  unfold State.serviceTx
  cases hc : s.pendingCall .tx with
  | none => exact .inr ⟨rfl, rfl⟩
  | some c => exact .inl ⟨c.1, c.2, rfl, rfl⟩

/-- A service step writes `SVC` and appends at most one call; everything else stays. -/
theorem State.serviceRx_frame (s : State) :
    ∃ phase calls, s.serviceRx = { s with svc := phase, out := s.out ++ calls } ∧
      (calls = [] ∧ phase = .idle ∨ ∃ h ch, calls = [.call .rx h ch] ∧ phase = .rxCall) := by
  obtain ⟨h, ch, -, hs⟩ | ⟨-, hs⟩ := s.serviceRx_cases
  · exact ⟨.rxCall, [.call .rx h ch], hs, .inr ⟨h, ch, rfl, rfl⟩⟩
  · exact ⟨.idle, [], by simp [hs, State.endService], .inl ⟨rfl, rfl⟩⟩

theorem State.serviceTx_frame (s : State) :
    ∃ phase calls, s.serviceTx = { s with svc := phase, out := s.out ++ calls } ∧
      (calls = [] ∧ phase = .idle ∨ ∃ d h ch, calls = [.call d h ch] ∧ phase = callPhase d) := by
  obtain ⟨h, ch, -, hs⟩ | ⟨-, hs⟩ := s.serviceTx_cases
  · exact ⟨.txCall, [.call .tx h ch], hs, .inr ⟨.tx, h, ch, rfl, rfl⟩⟩
  · obtain ⟨ph, cs, h1, h2⟩ := s.serviceRx_frame
    refine ⟨ph, cs, hs.trans h1, ?_⟩
    rcases h2 with h2 | ⟨h, ch, h2⟩
    · exact .inl h2
    · exact .inr ⟨.rx, h, ch, h2⟩

/-- Taking the interrupt latches the word, reads the status register once and makes at most one call. -/
theorem State.enterService_frame (s : State) (st : Status) :
    ∃ phase calls, s.enterService st =
        { s with slatch := st, svc := phase, out := s.out ++ .statusRead :: calls } ∧
      (calls = [] ∧ phase = .idle ∨ ∃ d h ch, calls = [.call d h ch] ∧ phase = callPhase d) := by
  obtain ⟨ph, cs, h, hc⟩ := State.serviceTx_frame (s.latchStatus st)
  exact ⟨ph, cs, by rw [State.enterService, h]; simp [State.latchStatus, State.emit], hc⟩

/-! ## A configure command -/

/-- A configure command writes the direction's descriptors and flags and appends `PinMux` and `Commit`. -/
theorem State.configure_eq (s : State) (d : Dir) (am : AudioMode) (cm : ClockMode) (bpc : BitsPerChannel) :
    s.configure d am cm bpc =
      { s.setRegs d { s.regs d with
          cd := (s.resolved d am cm bpc).cd, fd := (s.resolved d am cm bpc).fd, cfgv := true, ien := true } with
        out := s.out ++ [.pinMux d (s.resolved d am cm bpc).mask,
          .commit d (s.resolved d am cm bpc).cd (s.resolved d am cm bpc).fd]
        draws := (s.drawDatlen bpc).draws } := by
  cases d <;> by_cases h : bpcDefined bpc = true <;>
    simp [State.configure, State.drawDatlen, h, State.emit, State.setDescriptors, State.enableReady, State.setRegs]

/-! ## A read of the receive data register -/

/-- One read takes the environment's answer, or draws. -/
theorem State.rxDataRead_cases (s : State) :
    (∃ w ws, s.rxAnswers = w :: ws ∧ s.rxWord = w ∧
      s.rxDataRead = { s with rxAnswers := ws, out := s.out ++ [.rxDataRead] }) ∨
    (s.rxAnswers = [] ∧ s.rxDataRead = { s with draws := s.draws + 1, out := s.out ++ [.rxDataRead] }) := by
  cases h : s.rxAnswers with
  | nil => exact .inr ⟨rfl, by simp [State.rxDataRead, h, State.emit]⟩
  | cons w ws => exact .inl ⟨w, ws, rfl, by simp [State.rxWord, h], by simp [State.rxDataRead, h, State.emit]⟩

/-! ## Instructions -/

/-- What an instruction's next state is, for each instruction. -/
theorem exec_next {i : Instr} {s t : State} (h : exec i s = .next t) :
    match i with
    | .cfgtx am cm bpc => t = s.configure .tx am cm bpc
    | .cfgrx am cm bpc => t = s.configure .rx am cm bpc
    | .seten d b => t = s.setEn d b
    | .setcb d hd => t = s.setCb d hd
    | .wrsmp w => t = s.txDataWrite w
    | .rdsmp => t = s.rxDataRead.respond s.rxWord
    | .irq st => s.svc = .idle ∧ t = s.enterService st ∨ s.svc ≠ .idle ∧ t = s.holdBack (.irq st)
    | .ret => s.svc = .txCall ∧ t = s.serviceRx ∨ s.svc = .rxCall ∧ t = s.endService := by
  cases i with
  | cfgtx am cm bpc => exact (Host.Outcome.next.inj h).symm
  | cfgrx am cm bpc => exact (Host.Outcome.next.inj h).symm
  | seten d b => exact (Host.Outcome.next.inj h).symm
  | setcb d hd => exact (Host.Outcome.next.inj h).symm
  | wrsmp w => exact (Host.Outcome.next.inj h).symm
  | rdsmp => exact (Host.Outcome.next.inj h).symm
  | irq st =>
    cases hs : s.svc <;> simp only [exec, execIrq, hs, Host.Outcome.next.injEq] at h <;> simp [← h]
  | ret =>
    cases hs : s.svc <;> simp only [exec, execRet, State.returnFromCallback, hs, Host.Outcome.next.injEq, reduceCtorEq] at h <;>
      simp [← h]

/-! ## Steps -/

/-- What a step does when it answers a next state: nothing, a reset, or one decoded instruction. -/
theorem step_next {s t : State} (h : step s = .next t) :
    (nextInput s.svc s.inbox = none ∧ t = s) ∨
    (∃ left, nextInput s.svc s.inbox = some (.resetPin, left) ∧ t = ({ s with inbox := left } : State).assertReset) ∨
    (∃ ew left i, nextInput s.svc s.inbox = some (.word ew, left) ∧ decode ew = .instr i ∧
      exec i { s with inbox := left } = .next t) := by
  unfold step takeInput at h
  split at h
  · rename_i hn
    exact .inl ⟨hn, (Host.Outcome.next.inj h).symm⟩
  · rename_i x left hn
    cases x with
    | resetPin => exact .inr (.inl ⟨left, hn, (Host.Outcome.next.inj h).symm⟩)
    | word ew =>
      simp only [runInput, runWord] at h
      cases hd : decode ew with
      | instr i => exact .inr (.inr ⟨ew, left, i, hn, hd, by simpa [hd] using h⟩)
      | reserved why => simp [hd] at h

end Sys2Proof.Machine
end

