-- ==== Sys2Proof/Laws/PerInstr.lean ====
section
/-! SUPPORT. A statement about every instruction as syntax, one lemma per constructor. -/

namespace Sys2Proof.Laws.EncodingUnreserved

open Sys2Proof

/-- The event word the encoder writes is not reserved (R89). -/
def Statement (i : Instr) : Prop := WellFormed.eventWord (encode i) = true

/-- The command word of an event word is what stands above the operand. -/
theorem command_append (cw : CommandWord) (op : BitVec 32) :
    WellFormed.command (cw ++ op : BitVec (16 + 32)) = cw := by
  ext i hi
  rw [WellFormed.command, BitVec.getElem_extractLsb']
  exact BitVec.getLsbD_append.trans (by simp [hi])

/-- Whether a word is reserved depends on its command word alone. -/
theorem eventWord_append (cw : CommandWord) (op : BitVec 32) :
    WellFormed.eventWord (cw ++ op : BitVec (16 + 32)) = WellFormed.eventWord (cw ++ 0#32 : BitVec (16 + 32)) := by
  simp only [WellFormed.eventWord, WellFormed.opcodeKnown, WellFormed.zerosKept, WellFormed.audioModeLegal,
    WellFormed.zeroMask, WellFormed.isConfigure, WellFormed.opcodeBits, command_append]

theorem cfgtx (am : AudioMode) (cm : ClockMode) (bpc : BitsPerChannel) : Statement (.cfgtx am cm bpc) := by
  unfold Statement
  revert bpc
  cases am <;> cases cm <;> decide +kernel

theorem cfgrx (am : AudioMode) (cm : ClockMode) (bpc : BitsPerChannel) : Statement (.cfgrx am cm bpc) := by
  unfold Statement
  revert bpc
  cases am <;> cases cm <;> decide +kernel

theorem seten (d : Dir) (b : Bool) : Statement (.seten d b) := by
  unfold Statement
  cases d <;> cases b <;> decide

theorem setcb (d : Dir) (h : Handle) : Statement (.setcb d h) := by
  unfold Statement encode
  rw [eventWord_append]
  cases d <;> simp only [encodeCommand] <;> decide

theorem wrsmp (w : Word) : Statement (.wrsmp w) := by
  unfold Statement encode
  rw [eventWord_append]
  simp only [encodeCommand]
  decide

theorem rdsmp : Statement .rdsmp := by
  unfold Statement
  decide

theorem irq (st : Status) : Statement (.irq st) := by
  unfold Statement encode
  rw [eventWord_append]
  simp only [encodeCommand]
  decide

theorem ret : Statement .ret := by
  unfold Statement
  decide

end Sys2Proof.Laws.EncodingUnreserved
end

