-- ==== Sys2Proof/Tests/Slice0.lean ====
section
/-! SUPPORT. The model's own tests: expected values are from 95_test_vectors.md (V1 to V7, P1 to P4) and the examples of the
operation rules; after them, one witness per statement that has hypotheses. -/

namespace Sys2Proof.Tests

open Sys2Proof Sys2Proof.Machine Sys2Proof.Safety

/-! ## Small states, and reading an outcome -/

/-- The next state, if there is one. -/
def stateOf (o : Host.Outcome State Fault Refusal) : Option State :=
  match o with
  | .next t => some t
  | _ => none

/-- The refusal, if there is one. -/
def refusalOf (o : Host.Outcome State Fault Refusal) : Option Refusal :=
  match o with
  | .refused r => some r
  | _ => none

theorem next_of_stateOf {o : Host.Outcome State Fault Refusal} (h : (stateOf o).isSome = true) : ∃ t, o = .next t := by
  cases o with
  | next t => exact ⟨t, rfl⟩
  | fault r => cases r
  | refused r => exact absurd h (by simp [stateOf])

theorem refused_of_refusalOf {o : Host.Outcome State Fault Refusal} {r : Refusal} (h : refusalOf o = some r) :
    o = .refused r := by
  cases o with
  | next t => exact absurd h (by simp [refusalOf])
  | fault r => cases r
  | refused r => exact congrArg _ (by simpa [refusalOf] using h)

/-- Both callbacks registered, as in V6. -/
def registered : State :=
  { State.reset with
    tx := { DirRegs.reset with cb := 0x1000#32 }
    rx := { DirRegs.reset with cb := 0x2000#32 } }

/-- In the transmit callback of a service whose status word had all four bits set. -/
def inTxCall : State := { registered with slatch := 0xC11#32, svc := .txCall }

/-- In the receive callback of that service. -/
def inRxCall : State := { registered with slatch := 0xC11#32, svc := .rxCall }

/-- `registered`, with both ready interrupts enabled. -/
def enabled : State :=
  { registered with
    tx := { registered.tx with ien := true, cfgv := true, cd := 0x0100#16, fd := 0x00AF#16 }
    rx := { registered.rx with ien := true, cfgv := true, cd := 0x0110#16, fd := 0x00AF#16 } }

/-! ## Well-formedness: an ill-formed word for each check -/

theorem test_wf_opcode_0_refused : WellFormed.opcodeKnown 0x000000000000#48 = false := by decide
theorem test_wf_opcode_9_refused : WellFormed.opcodeKnown 0x900000000000#48 = false := by decide
theorem test_wf_zero_bit_refused :
    WellFormed.zerosKept 0x191000000000#48 = false ∧ WellFormed.zerosKept 0x340100000000#48 = false ∧
    WellFormed.zerosKept 0x440000002000#48 = false ∧ WellFormed.zerosKept 0x600100000000#48 = false := by decide
theorem test_wf_audio_mode_3_refused : WellFormed.audioModeLegal 0x1C1000000000#48 = false := by decide
theorem test_wf_bpc_out_of_range_accepted : WellFormed.eventWord 0x182100000000#48 = true := by decide

/-! ## Decoding: words written out from the formats of R82 to R87 -/

/-- opcode 0001, AM 01, CM 1, 0, BPC 00011000; OP ignored -/
theorem test_decode_cfgtx :
    decode (0b0001#4 ++ 0b01#2 ++ 0b1#1 ++ 0b0#1 ++ 0b00011000#8 ++ 0xDEADBEEF#32 : BitVec 48) =
      .instr (.cfgtx .monoRight .shared 24#8) := by decide
/-- opcode 0010, AM 00, CM 0, 0, BPC 00000000 -/
theorem test_decode_cfgrx :
    decode (0b0010#4 ++ 0b00#2 ++ 0b0#1 ++ 0b0#1 ++ 0b00000000#8 ++ 0#32 : BitVec 48) =
      .instr (.cfgrx .monoLeft .external 0#8) := by decide
/-- opcode 0011, DIR 1, ENB 0, ten zeros -/
theorem test_decode_seten :
    decode (0b0011#4 ++ 0b1#1 ++ 0b0#1 ++ 0#10 ++ 0xFFFFFFFF#32 : BitVec 48) = .instr (.seten .rx false) := by decide
/-- opcode 0100, DIR 0, eleven zeros, H -/
theorem test_decode_setcb :
    decode (0b0100#4 ++ 0b0#1 ++ 0#11 ++ 0x80000001#32 : BitVec 48) = .instr (.setcb .tx 0x80000001#32) := by decide
/-- opcode 0101, twelve zeros, W -/
theorem test_decode_wrsmp :
    decode (0b0101#4 ++ 0#12 ++ 0x12345678#32 : BitVec 48) = .instr (.wrsmp 0x12345678#32) := by decide
/-- opcode 0110, twelve zeros; OP ignored -/
theorem test_decode_rdsmp : decode (0b0110#4 ++ 0#12 ++ 0x1#32 : BitVec 48) = .instr .rdsmp := by decide
/-- opcode 0111, twelve zeros, S -/
theorem test_decode_irq : decode (0b0111#4 ++ 0#12 ++ 0xC11#32 : BitVec 48) = .instr (.irq 0xC11#32) := by decide
/-- opcode 1000, twelve zeros; OP ignored -/
theorem test_decode_ret : decode (0b1000#4 ++ 0#12 ++ 0xFFFFFFFF#32 : BitVec 48) = .instr .ret := by decide
/-- the words of the V1 and V7 rows -/
theorem test_encode_words :
    encode (.cfgrx .stereo .shared 8#8) = 0x2A0800000000#48 ∧ encode (.seten .tx true) = 0x340000000000#48 ∧
    encode (.setcb .rx 0x2000#32) = 0x480000002000#48 ∧ encode (.irq 0x401#32) = 0x700000000401#48 := by decide
theorem test_table_word :
    decodeTableWord 16 0x1810 = some (.cfgtx .stereo .external 16#8) ∧
    decodeTableWord 16 0x4800 = some (.setcb .rx 0#32) ∧ decodeTableWord 16 0x1C10 = none := by decide

/-! ## Configure commands (V1, V2) -/

theorem test_cfgtx_mono_right_shared :
    (stateOf (exec (.cfgtx .monoRight .shared 16#8) State.reset)).map (fun t => (t.tx.cd, t.tx.fd, t.rx, t.out)) =
      some (0x010D#16, 0x006F#16, DirRegs.reset, [.pinMux .tx 0b001#3, .commit .tx 0x010D#16 0x006F#16]) := by decide
/-- bits-per-channel 0 (U1): all but `DATLEN` is as usual, and one draw is used -/
theorem test_cfgtx_zero_bits_completes :
    (stateOf (exec (.cfgtx .stereo .external 0#8) State.reset)).map (fun t => (t.tx.cd, t.tx.cfgv, t.tx.ien, t.draws)) =
      some (0x0100#16, true, true, 1) := by decide
/-- P3 step 1 -/
theorem test_cfgrx_mono_right_32 :
    (stateOf (exec (.cfgrx .monoRight .external 32#8) State.reset)).map (fun t => (t.rx.cd, t.rx.fd, t.rx.ien, t.tx)) =
      some (0x011A#16, 0x007F#16, true, DirRegs.reset) := by decide
/-- V1: with `TX_EDGE = RISING` bit 4 is inverted -/
theorem test_cfgrx_rising :
    (stateOf (exec (.cfgrx .stereo .shared 24#8)
      { State.reset with params := { Params.default with txEdge := .rising } })).map (fun t => (t.rx.cd, t.rx.fd)) =
      some (0x0105#16, 0x00B7#16) := by decide

/-! ## Gate and registration (V3), data (V4) -/

theorem test_seten_rx_leaves_tx :
    (stateOf (exec (.seten .rx true) { State.reset with tx := { DirRegs.reset with en := true } })).map
      (fun t => (t.tx.en, t.rx.en, t.rx.ien, t.out)) = some (true, true, false, []) := by decide
theorem test_setcb_replaces :
    (stateOf (exec (.setcb .tx 0x1004#32) registered)).map (fun t => (t.tx.cb, t.rx.cb)) =
      some (0x1004#32, 0x2000#32) := by decide
theorem test_wrsmp_passes_all_bits :
    (stateOf (exec (.wrsmp 0xFFFFFFFF#32) State.reset)).map State.out = some [.txDataWrite 0xFFFFFFFF#32] := by decide
theorem test_rdsmp_no_sign_handling :
    (stateOf (exec .rdsmp { State.reset with rxAnswers := [0xFFFF8000#32, 1#32] })).map (fun t => (t.out, t.rxAnswers)) =
      some ([.rxDataRead, .respond 0xFFFF8000#32], [1#32]) := by decide

/-! ## Service (V5, V6) -/

theorem test_irq_transmit_sync_clear :
    (stateOf (exec (.irq 0x811#32) registered)).map (fun t => (t.out, t.svc, t.slatch)) =
      some ([.statusRead, .call .tx 0x1000#32 .ch2], .txCall, 0x811#32) := by decide
theorem test_irq_transmit_unregistered :
    (stateOf (exec (.irq 0xC11#32) { registered with tx := DirRegs.reset })).map (fun t => (t.out, t.svc)) =
      some ([.statusRead, .call .rx 0x2000#32 .ch1], .rxCall) := by decide
theorem test_ret_goes_on_to_receive :
    (stateOf (exec .ret inTxCall)).map (fun t => (t.out, t.svc)) = some ([.call .rx 0x2000#32 .ch1], .rxCall) := by
  decide
theorem test_ret_ends_service : (stateOf (exec .ret inRxCall)).map (fun t => (t.out, t.svc)) = some ([], .idle) := by
  decide
/-- V5: every bit but the four tested is ignored -/
theorem test_classify_ignored_bits :
    classify Params.default 0xFFFFF3EE#32 .tx = none ∧ classify Params.default 0xFFFFF3EE#32 .rx = none ∧
    classify Params.default 0xFFFFF3FF#32 .tx = some .ch2 ∧ classify Params.default 0xFFFFFFFF#32 .rx = some .ch1 := by
  decide
theorem test_default_positions_distinct : Params.default.distinct = true := by decide

/-- R40, R67 -/
theorem test_codes :
    svcCode .idle = 0#2 ∧ svcCode .txCall = 1#2 ∧ svcCode .rxCall = 2#2 ∧ channelCode .ch1 = 0#1 ∧
    channelCode .ch2 = 1#1 := by decide

/-! ## Steps -/

/-- V6, last but one row, with the `RET` after it: the `IRQ` waits and the `RET` is taken -/
theorem test_step_irq_waits :
    (stateOf (step { inTxCall with inbox := [.word 0x700000000010#48, .word 0x800000000000#48] })).map
      (fun t => (t.svc, t.slatch, t.inbox)) = some (.rxCall, 0xC11#32, [.word 0x700000000010#48]) := by decide
theorem test_step_reserved_refused :
    refusalOf (step { State.reset with inbox := [.word 0x340100000000#48] }) =
      some (.reservedEventWord .mustBeZero) := by decide
theorem test_step_fetch_word :
    (stateOf (step (State.reset.withFetchWord 16 0x3400))).map (fun t => (t.tx.en, t.inbox)) = some (true, []) := by decide
theorem test_step_ret_idle_refused :
    refusalOf (step (State.reset.withFetchWord 16 0x8000)) = some .retWhileIdle := by decide
theorem test_step_nothing_arrived : stateOf (step State.reset) = some State.reset := by decide

/-! ## Witnesses: for each statement with hypotheses, a state and operands that meet them -/

theorem witness_ReservedWordsHaveNoMeaning :
    nextInput State.reset.svc [.word 0x1C1000000000#48] = some (.word 0x1C1000000000#48, []) ∧
    decode 0x1C1000000000#48 = .reserved .audioMode := by decide
theorem witness_StepRunsTheDecodedInstruction :
    (nextInput .idle [.word 0x340000000000#48, .resetPin] = some (.word 0x340000000000#48, [.resetPin]) ∧
      decode 0x340000000000#48 = .instr (.seten .tx true)) ∧
    nextInput .idle [] = none ∧ nextInput .rxCall [.word 0x700000000000#48] = none := by decide
theorem witness_PlacedWordRunsNext :
    (decodeTableWord 16 0x7000 = some (.irq 0#32) ∧ State.reset.svc = .idle) ∧
    (decodeTableWord 16 0x8000 = some .ret ∧ inTxCall.svc ≠ .idle ∧ (Instr.ret ≠ .irq 0#32)) := by decide
theorem witness_InputsTakenInArrivalOrder :
    nextInput .txCall [.word 0x700000000000#48, .word 0x800000000000#48, .resetPin] =
      some (.word 0x800000000000#48, [.word 0x700000000000#48, .resetPin]) ∧
    nextInput .idle [.word 0x700000000000#48, .word 0x800000000000#48] =
      some (.word 0x700000000000#48, [.word 0x800000000000#48]) := by decide
theorem witness_ResetPinResetsEveryPhase :
    nextInput .txCall [.word 0x700000000000#48, .resetPin] = some (.resetPin, [.word 0x700000000000#48]) := by decide
theorem witness_ResetAbandonsARunningService : inTxCall.svc ≠ .idle ∧ inRxCall.svc ≠ .idle := by decide
theorem witness_OnlyResetUnconfigures :
    (∃ t, exec (.seten .tx false) enabled = .next t) ∧ (enabled.regs .tx).ien = true ∧ (enabled.regs .rx).cfgv = true :=
  ⟨next_of_stateOf (by decide), by decide, by decide⟩
theorem witness_EnableIsNeverRead :
    (∃ t, exec (.seten .rx true) State.reset = .next t) ∧ (∀ b, Instr.seten .rx true ≠ .seten .tx b) ∧
    exec .ret State.reset = .refused .retWhileIdle :=
  ⟨next_of_stateOf (by decide), by decide, refused_of_refusalOf (by decide)⟩
theorem witness_RdsmpRespondsWithTheWordRead :
    ({ State.reset with rxAnswers := [0xBEEF#32] } : State).rxAnswers = 0xBEEF#32 :: [] ∧
    State.reset.rxAnswers = [] := by decide
theorem witness_bitsPerChannel_in_range :
    (1 ≤ (1#8).toNat ∧ (1#8).toNat ≤ 32) ∧ (1 ≤ (32#8).toNat ∧ (32#8).toNat ≤ 32) := by decide
theorem witness_bitsPerChannel_out_of_range : (0#8).toNat = 0 ∧ 33 ≤ (33#8).toNat ∧ 33 ≤ (255#8).toNat := by decide
/-- also for `CfgrxConfiguresReceive`'s and `CfgtxConfiguresTransmit`'s example clauses -/
theorem witness_FrameLengthIsBitsPerChannelMinusOne :
    (stateOf (exec (.cfgtx .monoLeft .external 1#8) State.reset)).map (fun t => (fdDatlen t.tx.fd).toNat) = some 0 ∧
    (stateOf (exec (.cfgrx .monoLeft .external 32#8) State.reset)).map (fun t => (fdDatlen t.rx.fd).toNat) = some 31 ∧
    State.reset.params.txEdge = .falling := by decide
theorem witness_ConfiguringTwiceIsConfiguringOnce :
    (stateOf (exec (.cfgtx .stereo .external 32#8) inTxCall)).isSome = true ∧ 1 ≤ (32#8).toNat ∧ (32#8).toNat ≤ 32 := by
  decide
theorem witness_ClassifyByReadyAndSyncBits :
    ((0x400#32).getLsbD Params.default.srTxRdy = false) ∧
    ((0x401#32).getLsbD Params.default.srTxRdy = true ∧ (0x401#32).getLsbD Params.default.srTxSyn = true) ∧
    ((0x001#32).getLsbD Params.default.srTxRdy = true ∧ (0x001#32).getLsbD Params.default.srTxSyn = false) ∧
    ((0x800#32).getLsbD Params.default.srRxRdy = false) ∧
    ((0x810#32).getLsbD Params.default.srRxRdy = true ∧ (0x810#32).getLsbD Params.default.srRxSyn = true) ∧
    ((0x010#32).getLsbD Params.default.srRxRdy = true ∧ (0x010#32).getLsbD Params.default.srRxSyn = false) := by decide
theorem witness_IrqServesTransmitThenReceive :
    (registered.svc = .idle ∧ classify registered.params 0x401#32 .tx = some .ch1 ∧ registered.tx.cb ≠ 0#32) ∧
    (classify registered.params 0x010#32 .tx = none ∧ classify registered.params 0x010#32 .rx = some .ch2 ∧
      registered.rx.cb ≠ 0#32) ∧
    (classify registered.params 0xC00#32 .tx = none ∧ classify registered.params 0xC00#32 .rx = none) ∧
    (State.reset.svc = .idle ∧ State.reset.tx.cb = 0#32 ∧ State.reset.rx.cb = 0#32) ∧
    inTxCall.svc ≠ .idle := by decide
theorem witness_IrqServesTransmitThenReceive_example :
    ({ registered with rx := DirRegs.reset } : State).svc = .idle ∧
    ({ registered with rx := DirRegs.reset } : State).params = Params.default ∧
    ({ registered with rx := DirRegs.reset } : State).tx.cb = 0x1000#32 ∧
    ({ registered with rx := DirRegs.reset } : State).rx.cb = 0#32 := by decide
theorem witness_RetResumesOrEndsTheService :
    (inTxCall.svc = .txCall ∧ classify inTxCall.params inTxCall.slatch .rx = some .ch1 ∧ inTxCall.rx.cb ≠ 0#32) ∧
    (({ inTxCall with rx := DirRegs.reset } : State).svc = .txCall ∧
      ({ inTxCall with rx := DirRegs.reset } : State).rx.cb = 0#32) ∧
    inRxCall.svc = .rxCall ∧ State.reset.svc = .idle ∧
    (({ inTxCall with slatch := 0x401#32 } : State).svc = .txCall ∧
      ({ inTxCall with slatch := 0x401#32 } : State).params = Params.default) := by decide
theorem witness_RetWithoutACallIsRefused : State.reset.svc = .idle := by decide
theorem witness_IrqDuringAServiceWaits : inTxCall.svc ≠ .idle ∧ inRxCall.svc ≠ .idle := by decide
theorem witness_NoSecondServiceBegins :
    inTxCall.svc ≠ .idle ∧ nextInput .txCall [.word 0x700000000010#48, .word 0x800000000000#48] =
      some (.word 0x800000000000#48, [.word 0x700000000010#48]) ∧
    (stateOf (step { inTxCall with inbox := [.word 0x700000000010#48, .word 0x800000000000#48] })).isSome = true := by
  decide
theorem witness_CallbackThatNeverReturnsIsStuck :
    inTxCall.svc ≠ .idle ∧ [0x10#32, 0x401#32].map (fun st => Input.word (encode (.irq st))) =
      [.word 0x700000000010#48, .word 0x700000000401#48] := by decide
theorem witness_BothReadyCallsEachOnceTransmitFirst :
    registered.svc = .idle ∧ registered.tx.cb ≠ 0#32 ∧ registered.rx.cb ≠ 0#32 ∧
    classify registered.params 0x811#32 .tx = some .ch2 ∧ classify registered.params 0x811#32 .rx = some .ch1 := by decide
theorem witness_UnregisteredEventIsSkipped :
    (State.reset.svc = .idle ∧ State.reset.tx.cb = 0#32 ∧ State.reset.rx.cb = 0#32) ∧
    (({ registered with tx := DirRegs.reset } : State).svc = .idle ∧
      ({ registered with tx := DirRegs.reset } : State).tx.cb = 0#32 ∧
      classify registered.params 0xC11#32 .rx = some .ch1 ∧ registered.rx.cb ≠ 0#32 ∧
      classify registered.params 0x401#32 .rx = none) ∧
    (({ registered with rx := DirRegs.reset } : State).svc = .idle ∧
      (({ registered with rx := DirRegs.reset } : State).regs .rx).cb = 0#32 ∧
      classify registered.params 0xC11#32 .tx = some .ch1 ∧ registered.tx.cb ≠ 0#32 ∧
      classify registered.params 0x810#32 .tx = none) ∧
    (({ inTxCall with rx := DirRegs.reset } : State).svc = .txCall ∧
      ({ inTxCall with rx := DirRegs.reset } : State).rx.cb = 0#32) := by decide
theorem witness_DisableDoesNotCutAService : inTxCall.svc ≠ .idle ∧ inRxCall.svc ≠ .idle := by decide
theorem witness_HandleIsReadAtItsStep :
    inTxCall.svc = .txCall ∧ classify inTxCall.params inTxCall.slatch .rx = some .ch1 ∧ (0x3000#32 ≠ 0#32) := by decide
theorem witness_HostCommandsIgnoreThePhase : (∀ st, Instr.rdsmp ≠ .irq st) ∧ Instr.rdsmp ≠ .ret :=
  ⟨fun st h => Instr.noConfusion h, by decide⟩
theorem witness_ServiceConsultsOnlyLatchAndCallbacks :
    enabled ≠ registered ∧ enabled.svc = registered.svc ∧ enabled.slatch = registered.slatch ∧
    enabled.tx.cb = registered.tx.cb ∧ enabled.rx.cb = registered.rx.cb ∧ enabled.params = registered.params ∧
    enabled.out = registered.out ∧ (stateOf (exec (.irq 0xC11#32) registered)).isSome = true ∧
    refusalOf (exec .ret registered) = some .retWhileIdle := by decide
theorem witness_RegistersWrittenOnlyByTheirEvents :
    (∃ t, exec (.setcb .rx 5#32) registered = .next t) ∧
    (∀ am cm bpc, Instr.setcb .rx 5#32 ≠ configureInstr .tx am cm bpc) :=
  ⟨next_of_stateOf (by decide), fun _ _ _ h => Instr.noConfusion h⟩
theorem witness_step_of_a_configure_command :
    ∃ t, step (State.reset.withFetchWord 16 0x1810) = .next t := next_of_stateOf (by decide)
/-- both alternatives: a step that configures, and one that takes the reset pin -/
theorem witness_NeverAMaster :
    (∃ t, step (State.reset.withFetchWord 16 0x1810) = .next t) ∧
    (∃ t, step { enabled with inbox := [.resetPin] } = .next t) ∧
    nextInput enabled.svc [.resetPin] = some (.resetPin, []) :=
  ⟨next_of_stateOf (by decide), next_of_stateOf (by decide), by decide⟩
theorem witness_OneStatusReadPerService :
    (∃ t, step (registered.withFetchWord 16 0x7000) = .next t) ∧
    nextInput registered.svc (registered.withFetchWord 16 0x7000).inbox = some (.word 0x700000000000#48, []) ∧
    decode 0x700000000000#48 = .instr (.irq 0#32) ∧
    (∃ t, step State.reset = .next t) ∧ nextInput State.reset.svc State.reset.inbox = none :=
  ⟨next_of_stateOf (by decide), by decide, by decide, next_of_stateOf (by decide), by decide⟩
theorem witness_OnlyRetWithoutACallStops :
    ¬(Instr.ret = .ret ∧ inTxCall.svc = .idle) ∧ (Instr.irq 0x10#32 = .irq 0x10#32 ∧ inTxCall.svc ≠ .idle) ∧
    exec .ret State.reset = .refused .retWhileIdle :=
  ⟨by decide, by decide, refused_of_refusalOf (by decide)⟩
/-- a configured state, legal by R45, that steps: `enabled` holds the descriptors of `CFGTX` and `CFGRX` of V1 -/
theorem witness_StepKeepsRegistersLegal :
    RegistersLegal enabled ∧ enabled.tx.cfgv = true ∧ ∃ t, step (enabled.withFetchWord 16 0x2A10) = .next t :=
  ⟨⟨⟨rfl, fun _ => ⟨by decide, by decide⟩⟩, ⟨rfl, fun _ => ⟨by decide, by decide⟩⟩⟩, by decide,
    next_of_stateOf (by decide)⟩
theorem witness_ReachableRegistersLegal :
    (stateOf (Sys2Proof.core.run 2 ({ State.reset with
      inbox := [.word 0x1A1000000000#48, .word 0x242000000000#48] } : State))).map (fun t => (t.tx.cd, t.rx.cd)) =
      some (0x0105#16, 0x011A#16) := by decide
theorem witness_StepKeepsServiceGrounded :
    ServiceGrounded inTxCall ∧ inTxCall.svc = .txCall ∧ ∃ t, step (inTxCall.withFetchWord 16 0x8000) = .next t :=
  ⟨by decide, by decide, next_of_stateOf (by decide)⟩
theorem witness_RegistrationDisciplineIsKept :
    RegisteredBeforeEnabled enabled ∧ enabled.tx.ien = true ∧ keepsRegistered (.setcb .tx 7#32) enabled = true ∧
    keepsRegistered (.cfgtx .stereo .external 16#8) registered = true ∧
    ∃ t, exec (.cfgtx .stereo .external 16#8) registered = .next t :=
  ⟨by decide, by decide, by decide, by decide, next_of_stateOf (by decide)⟩
/-- transmit alone, receive alone, and receive behind transmit (all four bits set) -/
theorem witness_RequestedEventOfRegisteredHostIsCalled :
    RegisteredBeforeEnabled enabled ∧ enabled.svc = .idle ∧ (enabled.regs .tx).ien = true ∧
    (enabled.regs .rx).ien = true ∧ readyBit enabled.params 0x001#32 .tx = true ∧
    readyBit enabled.params 0x010#32 .rx = true ∧ readyBit enabled.params 0xC11#32 .tx = true ∧
    readyBit enabled.params 0xC11#32 .rx = true ∧ requested enabled 0xC11#32 = true := by decide
theorem witness_NormalSequencesClassifyByPeriod :
    stereoPattern Params.default .tx true [0x401#32, 0x001#32, 0x401#32] = true ∧
    monoPattern Params.default .rx [0x810#32, 0x810#32] = true := by decide
theorem witness_RacingSetcbIsOldOrNew :
    (enabled.svc = .idle ∧ classify enabled.params 0x401#32 .tx = some .ch1 ∧ (enabled.regs .tx).cb ≠ 0#32) ∧
    (({ enabled with tx := DirRegs.reset } : State).tx.cb = 0#32 ∧
      classify enabled.params 0x010#32 .rx = some .ch2 ∧ (enabled.regs .rx).cb ≠ 0#32) ∧
    (enabled.tx.cb ≠ 0#32 ∧ classify enabled.params 0x010#32 .tx = none) := by decide
theorem witness_LevelOutputsFollowConfigureAndEnable :
    (∃ t, exec (.irq 0xC11#32) enabled = .next t) ∧
    (∀ am cm bpc, Instr.irq 0xC11#32 ≠ configureInstr .tx am cm bpc) ∧ (∀ b, Instr.irq 0xC11#32 ≠ .seten .tx b) ∧
    (∃ t, exec (.seten .rx true) enabled = .next t) :=
  ⟨next_of_stateOf (by decide), fun _ _ _ h => Instr.noConfusion h, fun _ h => Instr.noConfusion h,
    next_of_stateOf (by decide)⟩
/-- the obligations can be kept for every instruction: the orders of P1 and P2 -/
theorem witness_HostThatKeepsItsObligationsIsNeverStopped :
    hostKeeps (.cfgrx .monoLeft .external 32#8) registered = true ∧ hostKeeps .rdsmp inRxCall = true ∧
    hostKeeps (.setcb .tx 0x1000#32) State.reset = true ∧ hostKeeps (.cfgtx .stereo .external 16#8) registered = true ∧
    hostKeeps (.seten .tx true) enabled = true ∧ hostKeeps (.irq 0x401#32) enabled = true ∧
    hostKeeps (.wrsmp 1#32) inTxCall = true ∧ hostKeeps .ret inTxCall = true := by decide

end Sys2Proof.Tests
end

/-! PROOFS. The statements about the scope of the block (00_scope.md R6, R12, R17). Configure commands are the only
transitions that write a descriptor or emit a `Commit`, and what they write is `Resolve`'s. -/

namespace Sys2Proof.Machine

open Sys2Proof.Safety

/-! ## `CKO` and `FSOS` of what the resolver returns (R107) -/

/-- Bit 5 lies above the four fields `CKI`, `EDGE`, `START` and `CKS`. -/
theorem cdCko_packCd (sttdly : BitVec 8) (cko cki edge : BitVec 1) (start : BitVec 2) (cks : BitVec 1) :
    cdCko (packCd sttdly cko cki edge start cks) = cko := by
  unfold cdCko packCd
  calc _ = BitVec.extractLsb' 4 1 (sttdly ++ 0#2 ++ cko ++ cki ++ edge ++ start) :=
        BitVec.extractLsb'_append_eq_of_le (by decide)
    _ = BitVec.extractLsb' 2 1 (sttdly ++ 0#2 ++ cko ++ cki ++ edge) :=
        BitVec.extractLsb'_append_eq_of_le (by decide)
    _ = BitVec.extractLsb' 1 1 (sttdly ++ 0#2 ++ cko ++ cki) := BitVec.extractLsb'_append_eq_of_le (by decide)
    _ = BitVec.extractLsb' 0 1 (sttdly ++ 0#2 ++ cko) := BitVec.extractLsb'_append_eq_of_le (by decide)
    _ = cko := BitVec.extractLsb'_append_eq_right

/-- Bit 8 lies above the three fields `NSLOT`, `MSBF` and `DATLEN`. -/
theorem fdFsos_packFd (fsos : BitVec 1) (nslot : BitVec 2) (msbf : BitVec 1) (datlen : BitVec 5) :
    fdFsos (packFd fsos nslot msbf datlen) = fsos := by
  unfold fdFsos packFd
  calc _ = BitVec.extractLsb' 3 1 (0#7 ++ fsos ++ nslot ++ msbf) := BitVec.extractLsb'_append_eq_of_le (by decide)
    _ = BitVec.extractLsb' 2 1 (0#7 ++ fsos ++ nslot) := BitVec.extractLsb'_append_eq_of_le (by decide)
    _ = BitVec.extractLsb' 0 1 (0#7 ++ fsos) := BitVec.extractLsb'_append_eq_of_le (by decide)
    _ = fsos := BitVec.extractLsb'_append_eq_right

@[simp] theorem State.cdCko_resolved (s : State) (d : Dir) (am : AudioMode) (cm : ClockMode) (bpc : BitsPerChannel) :
    cdCko (s.resolved d am cm bpc).cd = 0#1 :=
  cdCko_packCd ..

@[simp] theorem State.fdFsos_resolved (s : State) (d : Dir) (am : AudioMode) (cm : ClockMode) (bpc : BitsPerChannel) :
    fdFsos (s.resolved d am cm bpc).fd = 0#1 :=
  fdFsos_packFd ..

/-! ## A configure command, field by field -/

section Configure

variable (s : State) (d : Dir) (am : AudioMode) (cm : ClockMode) (bpc : BitsPerChannel)

@[simp] theorem State.configure_params : (s.configure d am cm bpc).params = s.params := by
  simp [State.configure_eq]

@[simp] theorem State.configure_out :
    (s.configure d am cm bpc).out =
      s.out ++ [.pinMux d (s.resolved d am cm bpc).mask,
        .commit d (s.resolved d am cm bpc).cd (s.resolved d am cm bpc).fd] := by
  rw [State.configure_eq]

@[simp] theorem State.regs_configure_same :
    (s.configure d am cm bpc).regs d =
      { s.regs d with
        cd := (s.resolved d am cm bpc).cd, fd := (s.resolved d am cm bpc).fd, cfgv := true, ien := true } := by
  rw [State.configure_eq]
  cases d <;> rfl

theorem State.regs_configure_of_ne {e : Dir} (h : e ≠ d) : (s.configure d am cm bpc).regs e = s.regs e := by
  rw [State.configure_eq]
  exact s.regs_setRegs_of_ne _ h

end Configure

/-! ## Transitions that leave the configuration alone -/

/-- From `s` to `t` the parameters and every descriptor stay, and the output grows by `added`: at most two events, none of
them a `Commit`. -/
structure KeepsConfiguration (s t : State) (added : List OutEvent) : Prop where
  params_eq : t.params = s.params
  descriptors_eq : ∀ d, (t.regs d).cd = (s.regs d).cd ∧ (t.regs d).fd = (s.regs d).fd
  out_eq : t.out = s.out ++ added
  length_le : added.length ≤ 2
  noCommit : ∀ d cd fd, .commit d cd fd ∉ added

/-- A transition that writes no descriptor and emits nothing. -/
theorem KeepsConfiguration.silent {s t : State} (hp : t.params = s.params)
    (hd : ∀ d, (t.regs d).cd = (s.regs d).cd ∧ (t.regs d).fd = (s.regs d).fd) (ho : t.out = s.out) :
    KeepsConfiguration s t [] :=
  ⟨hp, hd, by simp [ho], by simp, by simp⟩

theorem State.setEn_keepsConfiguration (s : State) (d : Dir) (b : Bool) : KeepsConfiguration s (s.setEn d b) [] :=
  .silent (by simp) (fun e => by cases d <;> cases e <;> exact ⟨rfl, rfl⟩) (by simp)

theorem State.setCb_keepsConfiguration (s : State) (d : Dir) (h : Handle) : KeepsConfiguration s (s.setCb d h) [] :=
  .silent (by simp) (fun e => by cases d <;> cases e <;> exact ⟨rfl, rfl⟩) (by simp)

theorem State.txDataWrite_keepsConfiguration (s : State) (w : Word) :
    KeepsConfiguration s (s.txDataWrite w) [.txDataWrite w] :=
  ⟨rfl, fun _ => ⟨rfl, rfl⟩, rfl, by simp, by simp⟩

theorem State.rxDataRead_respond_keepsConfiguration (s : State) (w : Word) :
    KeepsConfiguration s (s.rxDataRead.respond w) [.rxDataRead, .respond w] where
  params_eq := by simp
  descriptors_eq d := by cases d <;> simp
  out_eq := by simp
  length_le := by simp
  noCommit := by simp

/-- The interrupt adds its status read and at most one call. -/
theorem State.enterService_keepsConfiguration (s : State) (st : Status) :
    ∃ added, KeepsConfiguration s (s.enterService st) added := by
  obtain ⟨phase, calls, ht, hcalls⟩ := s.enterService_frame st
  refine ⟨.statusRead :: calls, by rw [ht], fun d => by rw [ht]; exact ⟨rfl, rfl⟩, by rw [ht], ?_, ?_⟩ <;>
    obtain ⟨rfl, -⟩ | ⟨d, h, ch, rfl, -⟩ := hcalls <;> simp

theorem State.serviceRx_keepsConfiguration (s : State) : ∃ added, KeepsConfiguration s s.serviceRx added := by
  obtain ⟨phase, calls, ht, hcalls⟩ := s.serviceRx_frame
  refine ⟨calls, by rw [ht], fun d => by rw [ht]; exact ⟨rfl, rfl⟩, by rw [ht], ?_, ?_⟩ <;>
    obtain ⟨rfl, -⟩ | ⟨h, ch, rfl, -⟩ := hcalls <;> simp

/-! ## Every instruction and every step -/

/-- An instruction that completes is a configure command, or leaves the configuration alone. -/
theorem exec_configures_or_keeps {i : Instr} {s t : State} (h : exec i s = .next t) :
    (∃ d am cm bpc, i = configureInstr d am cm bpc ∧ t = s.configure d am cm bpc) ∨
    ∃ added, KeepsConfiguration s t added := by
  have ht := exec_next h
  cases i with
  | cfgtx am cm bpc => exact .inl ⟨.tx, am, cm, bpc, rfl, ht⟩
  | cfgrx am cm bpc => exact .inl ⟨.rx, am, cm, bpc, rfl, ht⟩
  | seten d b => exact .inr ⟨_, ht ▸ s.setEn_keepsConfiguration d b⟩
  | setcb d hd => exact .inr ⟨_, ht ▸ s.setCb_keepsConfiguration d hd⟩
  | wrsmp w => exact .inr ⟨_, ht ▸ s.txDataWrite_keepsConfiguration w⟩
  | rdsmp => exact .inr ⟨_, ht ▸ s.rxDataRead_respond_keepsConfiguration s.rxWord⟩
  | irq st =>
    obtain ⟨-, rfl⟩ | ⟨-, rfl⟩ := ht
    · exact .inr (s.enterService_keepsConfiguration st)
    · exact .inr ⟨[], .silent rfl (fun _ => ⟨rfl, rfl⟩) rfl⟩
  | ret =>
    obtain ⟨-, rfl⟩ | ⟨-, rfl⟩ := ht
    · exact .inr s.serviceRx_keepsConfiguration
    · exact .inr ⟨[], .silent rfl (fun _ => ⟨rfl, rfl⟩) rfl⟩

/-- A step runs a configure command, takes the reset pin, or leaves the configuration alone. -/
theorem step_configures_or_resets_or_keeps {s t : State} (h : step s = .next t) :
    (∃ left d am cm bpc, t = ({ s with inbox := left } : State).configure d am cm bpc) ∨
    (∃ left, nextInput s.svc s.inbox = some (.resetPin, left) ∧ t = ({ s with inbox := left } : State).assertReset) ∨
    ∃ added, KeepsConfiguration s t added := by
  obtain ⟨-, rfl⟩ | hreset | ⟨ew, left, i, -, -, hexec⟩ := step_next h
  · exact .inr (.inr ⟨[], .silent rfl (fun _ => ⟨rfl, rfl⟩) rfl⟩)
  · exact .inr (.inl hreset)
  · obtain ⟨d, am, cm, bpc, -, ht⟩ | ⟨added, hp, hd, ho, hl, hc⟩ := exec_configures_or_keeps hexec
    · exact .inl ⟨left, d, am, cm, bpc, ht⟩
    · exact .inr (.inr ⟨added, hp, hd, ho, hl, hc⟩)

/-! ## The statements -/

/-- Settles O42: a configure command adds two events, the reset pin none, and every other step at most two. -/
theorem outputOnlyGrowsAndParametersStay : Obligations.OutputOnlyGrowsAndParametersStay := by
  intro s t h
  obtain ⟨left, d, am, cm, bpc, rfl⟩ | ⟨left, -, rfl⟩ | ⟨added, hk⟩ := step_configures_or_resets_or_keeps h
  · exact ⟨by simp, _, State.configure_out .., by simp⟩
  · exact ⟨rfl, [], by simp, by simp⟩
  · exact ⟨hk.params_eq, added, hk.out_eq, hk.length_le⟩

/-- Settles O40: only a configure command commits or writes descriptors, and `Resolve` gives them `CKO = 0` and
`FSOS = 0` for every argument (R107). -/
theorem neverAMaster : Obligations.NeverAMaster := by
  intro s t h
  obtain ⟨left, d, am, cm, bpc, rfl⟩ | ⟨left, hn, rfl⟩ | ⟨added, hk⟩ := step_configures_or_resets_or_keeps h
  · refine ⟨⟨_, State.configure_out .., fun e cd fd hmem => ?_⟩, fun e => .inl ?_⟩
    · obtain ⟨-, rfl, rfl⟩ := by simpa using hmem
      exact ⟨State.cdCko_resolved .., State.fdFsos_resolved ..⟩
    · by_cases he : e = d
      · subst he
        simp
      · rw [State.regs_configure_of_ne _ _ _ _ _ he]
        exact ⟨fun hcd => absurd rfl hcd, fun hfd => absurd rfl hfd⟩
  · exact ⟨⟨[], by simp, by simp⟩, fun d => .inr ⟨⟨left, hn⟩, by cases d <;> rfl⟩⟩
  · refine ⟨⟨added, hk.out_eq, fun d cd fd hmem => absurd hmem (hk.noCommit d cd fd)⟩, fun d => .inl ?_⟩
    obtain ⟨hcd, hfd⟩ := hk.descriptors_eq d
    exact ⟨fun hne => absurd hcd hne, fun hne => absurd hfd hne⟩

end Sys2Proof.Machine

/-! PROOFS. The statements about the registers (10_state.md R37, R42 to R45): which event writes which register, that the
data-path enable is read by none, and that every configured descriptor is one the resolver gives. -/

namespace Sys2Proof.Machine

open Sys2Proof.Safety

/-! ## The fields of a packed descriptor (R23, R30, R102) -/

section PackedDescriptors

variable (sttdly : BitVec 8) (cko cki edge : BitVec 1) (start : BitVec 2) (cks : BitVec 1)

theorem cdCks_packCd : cdCks (packCd sttdly cko cki edge start cks) = cks :=
  BitVec.extractLsb'_append_eq_right

theorem cdStart_packCd : cdStart (packCd sttdly cko cki edge start cks) = start :=
  (BitVec.extractLsb'_append_eq_of_le (by decide)).trans BitVec.extractLsb'_append_eq_right

theorem cdEdge_packCd : cdEdge (packCd sttdly cko cki edge start cks) = edge := by
  iterate 2 refine (BitVec.extractLsb'_append_eq_of_le (by decide)).trans ?_
  exact BitVec.extractLsb'_append_eq_right

theorem cdCki_packCd : cdCki (packCd sttdly cko cki edge start cks) = cki := by
  iterate 3 refine (BitVec.extractLsb'_append_eq_of_le (by decide)).trans ?_
  exact BitVec.extractLsb'_append_eq_right

theorem cdReserved_packCd : cdReserved (packCd sttdly cko cki edge start cks) = 0#2 := by
  iterate 5 refine (BitVec.extractLsb'_append_eq_of_le (by decide)).trans ?_
  exact BitVec.extractLsb'_append_eq_right

theorem cdSttdly_packCd : cdSttdly (packCd sttdly cko cki edge start cks) = sttdly := by
  iterate 6 refine (BitVec.extractLsb'_append_eq_of_le (by decide)).trans ?_
  exact BitVec.extractLsb'_eq_self

end PackedDescriptors

section PackedDescriptors

variable (fsos : BitVec 1) (nslot : BitVec 2) (msbf : BitVec 1) (datlen : BitVec 5)

theorem fdMsbf_packFd : fdMsbf (packFd fsos nslot msbf datlen) = msbf :=
  (BitVec.extractLsb'_append_eq_of_le (by decide)).trans BitVec.extractLsb'_append_eq_right

theorem fdNslot_packFd : fdNslot (packFd fsos nslot msbf datlen) = nslot := by
  iterate 2 refine (BitVec.extractLsb'_append_eq_of_le (by decide)).trans ?_
  exact BitVec.extractLsb'_append_eq_right

theorem fdReserved_packFd : fdReserved (packFd fsos nslot msbf datlen) = 0#7 := by
  iterate 4 refine (BitVec.extractLsb'_append_eq_of_le (by decide)).trans ?_
  exact BitVec.extractLsb'_eq_self

end PackedDescriptors

/-! ## What the resolver returns is legal (R45) -/

/-- R105: `START` is 2 exactly on the other direction's clock, and the frame edge's own code on the direction's pins. -/
theorem startTrigger_legal (am : AudioMode) (cm : ClockMode) :
    startTrigger am cm ≠ 3#2 ∧ (startTrigger am cm = 2#2 ↔ clockSource cm = 1#1) ∧
    (clockSource cm = 0#1 → startTrigger am cm = (edgeCode (startEdge am)).setWidth 2) := by
  cases cm <;> cases am <;> decide

/-- R106: receive samples on the edge opposite to `TX_EDGE`. -/
theorem edgeCode_opposite (e : Edge) : edgeCode (opposite e) = 1#1 - edgeCode e := by
  cases e <;> decide

theorem slotCount_eq_one_or_two (am : AudioMode) : slotCount am = 1#2 ∨ slotCount am = 2#2 := by
  cases am <;> decide

section Resolve

variable (p : Params) (free : BitVec 5) (d : Dir) (am : AudioMode) (cm : ClockMode) (bpc : BitsPerChannel)

theorem clockDescriptorLegal_resolve : ClockDescriptorLegal p d (resolve p.txEdge free d am cm bpc).cd := by
  obtain ⟨hne, hother, hown⟩ := startTrigger_legal am cm
  simp only [ClockDescriptorLegal, resolve, cdCko_packCd, cdSttdly_packCd, cdReserved_packCd, cdStart_packCd,
    cdCks_packCd, cdEdge_packCd, cdCki_packCd, true_and]
  refine ⟨hne, hother, hown, ?_, ?_⟩
  · rintro rfl
    rfl
  · rintro rfl
    exact edgeCode_opposite p.txEdge

theorem frameDescriptorLegal_resolve : FrameDescriptorLegal (resolve p.txEdge free d am cm bpc).fd :=
  ⟨fdMsbf_packFd .., fdFsos_packFd .., fdReserved_packFd .., by
    rw [resolve, fdNslot_packFd]
    exact slotCount_eq_one_or_two am⟩

end Resolve

/-! ## What an instruction writes, register by register (R42) -/

section ConfigureFrame

variable (s : State) (d : Dir) (am : AudioMode) (cm : ClockMode) (bpc : BitsPerChannel)

@[simp] theorem State.configure_slatch : (s.configure d am cm bpc).slatch = s.slatch := by
  simp [State.configure_eq]

@[simp] theorem State.configure_svc : (s.configure d am cm bpc).svc = s.svc := by
  simp [State.configure_eq]

@[simp] theorem State.configure_inbox : (s.configure d am cm bpc).inbox = s.inbox := by
  simp [State.configure_eq]

@[simp] theorem State.configure_rxAnswers : (s.configure d am cm bpc).rxAnswers = s.rxAnswers := by
  simp [State.configure_eq]

end ConfigureFrame

@[simp] theorem State.regs_rxDataRead (s : State) (d : Dir) : s.rxDataRead.regs d = s.regs d := by
  cases d <;> simp

@[simp] theorem State.regs_enterService (s : State) (st : Status) (d : Dir) :
    (s.enterService st).regs d = s.regs d := by
  obtain ⟨phase, calls, ht, -⟩ := s.enterService_frame st
  rw [ht]
  rfl

@[simp] theorem State.regs_serviceRx (s : State) (d : Dir) : s.serviceRx.regs d = s.regs d := by
  obtain ⟨phase, calls, ht, -⟩ := s.serviceRx_frame
  rw [ht]
  rfl

/-- The registers of `d` change by the three commands that name `d`, each writing its own fields, and by nothing else. -/
theorem exec_regs {i : Instr} {s t : State} (h : exec i s = .next t) (d : Dir) :
    t.regs d = s.regs d ∨
    (∃ am cm bpc, i = configureInstr d am cm bpc ∧ t.regs d =
      { s.regs d with
        cd := (s.resolved d am cm bpc).cd, fd := (s.resolved d am cm bpc).fd, cfgv := true, ien := true }) ∨
    (∃ b, i = .seten d b ∧ t.regs d = { s.regs d with en := b }) ∨
    (∃ hd, i = .setcb d hd ∧ t.regs d = { s.regs d with cb := hd }) := by
  have ht := exec_next h
  cases i with
  | cfgtx am cm bpc =>
    cases d
    · exact .inr (.inl ⟨am, cm, bpc, rfl, ht ▸ s.regs_configure_same ..⟩)
    · exact .inl (ht ▸ s.regs_configure_of_ne _ _ _ _ (by decide))
  | cfgrx am cm bpc =>
    cases d
    · exact .inl (ht ▸ s.regs_configure_of_ne _ _ _ _ (by decide))
    · exact .inr (.inl ⟨am, cm, bpc, rfl, ht ▸ s.regs_configure_same ..⟩)
  | seten e b =>
    obtain rfl | hne := eq_or_ne d e
    · exact .inr (.inr (.inl ⟨b, rfl, ht ▸ s.regs_setEn_same d b⟩))
    · exact .inl (ht ▸ s.regs_setRegs_of_ne _ hne)
  | setcb e hd =>
    obtain rfl | hne := eq_or_ne d e
    · exact .inr (.inr (.inr ⟨hd, rfl, ht ▸ s.regs_setCb_same d hd⟩))
    · exact .inl (ht ▸ s.regs_setRegs_of_ne _ hne)
  | wrsmp w => exact .inl (ht ▸ rfl)
  | rdsmp => exact .inl (ht ▸ s.regs_rxDataRead d)
  | irq st =>
    obtain ⟨-, rfl⟩ | ⟨-, rfl⟩ := ht
    · exact .inl (s.regs_enterService st d)
    · exact .inl rfl
  | ret =>
    obtain ⟨-, rfl⟩ | ⟨-, rfl⟩ := ht
    · exact .inl (s.regs_serviceRx d)
    · exact .inl rfl

theorem exec_params {i : Instr} {s t : State} (h : exec i s = .next t) : t.params = s.params := by
  obtain ⟨d, am, cm, bpc, -, rfl⟩ | ⟨added, hk⟩ := exec_configures_or_keeps h
  · exact s.configure_params d am cm bpc
  · exact hk.params_eq

/-- Outside an `IRQ`, the latched word and the waiting inputs stay; `SVC` is `RET`'s and the answers are `RDSMP`'s. -/
theorem exec_frame_of_ne_irq {i : Instr} {s t : State} (h : exec i s = .next t) (hi : ∀ st, i ≠ .irq st) :
    t.slatch = s.slatch ∧ t.inbox = s.inbox ∧ (i ≠ .ret → t.svc = s.svc) ∧ (i ≠ .rdsmp → t.rxAnswers = s.rxAnswers) := by
  have ht := exec_next h
  cases i with
  | irq st => exact absurd rfl (hi st)
  | rdsmp =>
    obtain rfl : t = s.rxDataRead.respond s.rxWord := ht
    simp
  | ret =>
    obtain ⟨-, rfl⟩ | ⟨-, rfl⟩ := ht
    · obtain ⟨phase, calls, hrx, -⟩ := s.serviceRx_frame
      rw [hrx]
      simp
    · simp
  | _ =>
    change t = _ at ht
    simp [ht]

theorem exec_irq_rxAnswers {st : Status} {s t : State} (h : exec (.irq st) s = .next t) : t.rxAnswers = s.rxAnswers := by
  obtain ⟨-, rfl⟩ | ⟨-, rfl⟩ := exec_next h
  · obtain ⟨phase, calls, hs, -⟩ := s.enterService_frame st
    rw [hs]
  · rfl

/-- Settles O39: `exec_regs` gives the registers of a direction. -/
theorem registersWrittenOnlyByTheirEvents : Obligations.RegistersWrittenOnlyByTheirEvents := by
  intro i s t h
  refine ⟨fun d => ?_, fun hi => ?_, fun hi => ?_, fun hi => ?_, exec_params h⟩
  · obtain hr | ⟨am, cm, bpc, rfl, hr⟩ | ⟨b, rfl, hr⟩ | ⟨hd, rfl, hr⟩ := exec_regs h d <;> rw [hr]
    · exact ⟨fun _ => ⟨rfl, rfl, rfl, rfl⟩, fun _ => rfl, fun _ => rfl⟩
    · exact ⟨fun hi => absurd rfl (hi am cm bpc), fun _ => rfl, fun _ => rfl⟩
    · exact ⟨fun _ => ⟨rfl, rfl, rfl, rfl⟩, fun hi => absurd rfl (hi b), fun _ => rfl⟩
    · exact ⟨fun _ => ⟨rfl, rfl, rfl, rfl⟩, fun _ => rfl, fun hi => absurd rfl (hi hd)⟩
  · obtain ⟨hl, hin, -, -⟩ := exec_frame_of_ne_irq h hi
    exact ⟨hl, hin⟩
  · obtain ⟨-, -, hsvc, -⟩ := exec_frame_of_ne_irq h hi
    exact hsvc
  · cases i with
    | irq st => exact exec_irq_rxAnswers h
    | _ =>
      obtain ⟨-, -, -, hans⟩ := exec_frame_of_ne_irq h (fun st => nofun)
      exact hans hi

/-! ## The level outputs (R43) -/

/-- Settles O52: the levels are read off the direction's registers, and of the commands that write these (`exec_regs`)
`SETCB` writes no level. -/
theorem levelOutputsFollowConfigureAndEnable : Obligations.LevelOutputsFollowConfigureAndEnable := by
  intro i s t d h
  refine ⟨fun hcfg hen => ?_, fun b hi => ?_⟩
  · obtain hr | ⟨am, cm, bpc, rfl, -⟩ | ⟨b, rfl, -⟩ | ⟨hd, -, hr⟩ := exec_regs h d
    · simp only [State.levels, hr]
    · exact absurd rfl (hcfg am cm bpc)
    · exact absurd rfl (hen b)
    · simp only [State.levels, hr]
  · subst hi
    obtain rfl : t = s.setEn d b := exec_next h
    simp only [State.levels, State.regs_setEn_same]

/-! ## Forcing `EN` commutes with every other instruction (R37) -/

/-- `f` on the next state; a stop stays as it is. -/
def mapNext (f : State → State) (o : Host.Outcome State Fault Refusal) : Host.Outcome State Fault Refusal :=
  match o with
  | .next s => .next (f s)
  | .fault r => .fault r
  | .refused r => .refused r

@[simp] theorem mapNext_next (f : State → State) (s : State) : mapNext f (.next s) = .next (f s) := rfl
@[simp] theorem mapNext_refused (f : State → State) (r : Refusal) : mapNext f (.refused r) = .refused r := rfl

section ForceEnable

variable (s : State) (d : Dir) (v : Bool)

@[simp] theorem State.cb_regs_setEn (e : Dir) : ((s.setEn d v).regs e).cb = (s.regs e).cb := by
  cases d <;> cases e <;> rfl

@[simp] theorem State.pendingCall_setEn (e : Dir) : (s.setEn d v).pendingCall e = s.pendingCall e :=
  State.pendingCall_congr (s.setEn_params d v) (s.setEn_slatch d v) (s.cb_regs_setEn d v e)

@[simp] theorem State.rxWord_setEn : (s.setEn d v).rxWord = s.rxWord := by
  simp only [State.rxWord, State.setEn_rxAnswers, State.setEn_draws]

@[simp] theorem State.resolved_setEn (e : Dir) (am : AudioMode) (cm : ClockMode) (bpc : BitsPerChannel) :
    (s.setEn d v).resolved e am cm bpc = s.resolved e am cm bpc := by
  simp only [State.resolved, State.setEn_params, State.setEn_draws]

theorem State.emit_setEn (e : OutEvent) : (s.setEn d v).emit e = (s.emit e).setEn d v := by
  cases d <;> rfl

theorem State.setEn_setEn_of_ne {e : Dir} (b : Bool) (h : e ≠ d) :
    (s.setEn d v).setEn e b = (s.setEn e b).setEn d v := by
  cases d <;> cases e
  case tx.rx | rx.tx => rfl
  case tx.tx | rx.rx => exact absurd rfl h

theorem State.setCb_setEn (e : Dir) (h : Handle) : (s.setEn d v).setCb e h = (s.setCb e h).setEn d v := by
  cases d <;> cases e <;> rfl

theorem State.drawDatlen_setEn (bpc : BitsPerChannel) :
    (s.setEn d v).drawDatlen bpc = (s.drawDatlen bpc).setEn d v := by
  unfold State.drawDatlen
  split
  · rfl
  · cases d <;> rfl

theorem State.setDescriptors_setEn (e : Dir) (cd fd : Descriptor) :
    (s.setEn d v).setDescriptors e cd fd = (s.setDescriptors e cd fd).setEn d v := by
  cases d <;> cases e <;> rfl

theorem State.enableReady_setEn (e : Dir) : (s.setEn d v).enableReady e = (s.enableReady e).setEn d v := by
  cases d <;> cases e <;> rfl

theorem State.configure_setEn (e : Dir) (am : AudioMode) (cm : ClockMode) (bpc : BitsPerChannel) :
    (s.setEn d v).configure e am cm bpc = (s.configure e am cm bpc).setEn d v := by
  simp only [State.configure, State.resolved_setEn, State.drawDatlen_setEn, State.emit_setEn,
    State.setDescriptors_setEn, State.enableReady_setEn]

theorem State.rxDataRead_setEn : (s.setEn d v).rxDataRead = s.rxDataRead.setEn d v := by
  unfold State.rxDataRead
  rw [State.setEn_rxAnswers]
  split <;> cases d <;> rfl

theorem State.call_setEn (e : Dir) (h : Handle) (ch : Channel) :
    (s.setEn d v).call e h ch = (s.call e h ch).setEn d v := by
  cases d <;> rfl

theorem State.endService_setEn : (s.setEn d v).endService = s.endService.setEn d v := by
  cases d <;> rfl

theorem State.holdBack_setEn (i : Instr) : (s.setEn d v).holdBack i = (s.holdBack i).setEn d v := by
  cases d <;> rfl

theorem State.latchStatus_setEn (st : Status) : (s.setEn d v).latchStatus st = (s.latchStatus st).setEn d v := by
  cases d <;> rfl

theorem State.serviceRx_setEn : (s.setEn d v).serviceRx = s.serviceRx.setEn d v := by
  unfold State.serviceRx
  rw [State.pendingCall_setEn]
  split
  · exact s.call_setEn ..
  · exact s.endService_setEn d v

theorem State.serviceTx_setEn : (s.setEn d v).serviceTx = s.serviceTx.setEn d v := by
  unfold State.serviceTx
  rw [State.pendingCall_setEn]
  split
  · exact s.call_setEn ..
  · exact s.serviceRx_setEn d v

theorem State.enterService_setEn (st : Status) :
    (s.setEn d v).enterService st = (s.enterService st).setEn d v := by
  rw [State.enterService, State.latchStatus_setEn, State.serviceTx_setEn, State.enterService]

/-- Forcing `EN` before an instruction is forcing it afterwards, unless the instruction writes it. -/
theorem exec_setEn {i : Instr} (hi : ∀ b, i ≠ .seten d b) :
    exec i (s.setEn d v) = mapNext (·.setEn d v) (exec i s) := by
  cases i with
  | cfgtx am cm bpc => exact congrArg _ (s.configure_setEn ..)
  | cfgrx am cm bpc => exact congrArg _ (s.configure_setEn ..)
  | seten e b =>
    have hne : e ≠ d := fun he => hi b (he ▸ rfl)
    exact congrArg _ (s.setEn_setEn_of_ne d v b hne)
  | setcb e h => exact congrArg _ (s.setCb_setEn ..)
  | wrsmp w => exact congrArg _ (s.emit_setEn ..)
  | rdsmp =>
    refine congrArg Host.Outcome.next ?_
    rw [State.rxWord_setEn, State.rxDataRead_setEn, State.respond, State.emit_setEn, State.respond]
  | irq st =>
    simp only [exec, execIrq, State.setEn_svc]
    cases s.svc with
    | idle => exact congrArg _ (s.enterService_setEn ..)
    | txCall => exact congrArg _ (s.holdBack_setEn ..)
    | rxCall => exact congrArg _ (s.holdBack_setEn ..)
  | ret =>
    simp only [exec, execRet, State.returnFromCallback, State.setEn_svc]
    cases s.svc with
    | idle => rfl
    | txCall => exact congrArg _ (s.serviceRx_setEn ..)
    | rxCall => exact congrArg _ (s.endService_setEn ..)

end ForceEnable

/-- Settles O16: `exec_setEn`, read for a next state and for a refusal. -/
theorem enableIsNeverRead : Obligations.EnableIsNeverRead := by
  intro i s d v hi
  rw [exec_setEn s d v hi]
  exact ⟨fun t ht => by rw [ht, mapNext_next], fun r hr => by rw [hr, mapNext_refused]⟩

/-! ## The invariant of R45 -/

theorem registersLegal_iff (s : State) : RegistersLegal s ↔ ∀ d, DirectionLegal s.params d (s.regs d) :=
  ⟨fun ⟨htx, hrx⟩ d => by cases d <;> assumption, fun h => ⟨h .tx, h .rx⟩⟩

/-- An unconfigured direction with its ready interrupt off is legal, whatever its descriptors hold (R44). -/
theorem directionLegal_reset (p : Params) (d : Dir) : DirectionLegal p d DirRegs.reset :=
  ⟨rfl, fun h => absurd h (by decide)⟩

theorem exec_keeps_registersLegal {i : Instr} {s t : State} (hs : RegistersLegal s) (h : exec i s = .next t) :
    RegistersLegal t := by
  rw [registersLegal_iff] at hs ⊢
  intro d
  rw [exec_params h]
  obtain hr | ⟨am, cm, bpc, -, hr⟩ | ⟨b, -, hr⟩ | ⟨hd, -, hr⟩ := exec_regs h d <;> rw [hr]
  · exact hs d
  · exact ⟨rfl, fun _ => ⟨clockDescriptorLegal_resolve s.params (Config.freeDatlen s.draws) d am cm bpc,
      frameDescriptorLegal_resolve s.params (Config.freeDatlen s.draws) d am cm bpc⟩⟩
  · exact hs d
  · exact hs d

/-- Settles O44: only a configure command writes a descriptor, and it writes what `Resolve` returns; the reset pin
unconfigures. -/
theorem stepKeepsRegistersLegal : Obligations.StepKeepsRegistersLegal := by
  intro s t hs h
  obtain ⟨-, rfl⟩ | ⟨left, -, rfl⟩ | ⟨ew, left, i, -, -, hexec⟩ := step_next h
  · exact hs
  · exact ⟨directionLegal_reset .., directionLegal_reset ..⟩
  · exact exec_keeps_registersLegal (s := { s with inbox := left }) hs hexec

/-- Settles O45: both directions are unconfigured. -/
theorem resetRegistersLegal : Obligations.ResetRegistersLegal :=
  fun _ _ _ => ⟨directionLegal_reset .., directionLegal_reset ..⟩

/-- What every step keeps holds after every run. -/
theorem run_invariant {M : Host.Core} {Inv : M.State → Prop}
    (hstep : ∀ s t, Inv s → M.step s = .next t → Inv t) (n : Nat) :
    ∀ s t, Inv s → M.run n s = .next t → Inv t := by
  induction n with
  | zero =>
    intro s t hs h
    exact Host.Outcome.next.inj h ▸ hs
  | succ n ih =>
    intro s t hs h
    rw [Host.Core.run] at h
    split at h
    · rename_i s' hnext
      exact ih s' t (hstep s s' hs hnext) h
    · cases h
    · cases h

/-- Settles O46: the invariant holds at reset (O45) and every step keeps it (O44). -/
theorem reachableRegistersLegal : Obligations.ReachableRegistersLegal :=
  fun n p xs ws t =>
    run_invariant (M := Sys2Proof.core) stepKeepsRegistersLegal n _ t (resetRegistersLegal p xs ws)

/-! ## The state after reset (R44) -/

/-- Settles O9: both directions hold `DirRegs.reset`. -/
theorem resetLeavesTheSpecsValues : Obligations.ResetLeavesTheSpecsValues := by
  refine ⟨fun d => ?_, rfl⟩
  have hr : State.reset.regs d = DirRegs.reset := by cases d <;> rfl
  rw [hr]
  exact ⟨rfl, rfl, rfl, rfl⟩

end Sys2Proof.Machine

/-! PROOFS. The statements about the input ports and the status port (20_memory.md R62, R68): which input a step takes,
that the step runs it, and that only an accepted `IRQ` reads the status register. -/

namespace Sys2Proof.Machine

/-! ## Acceptance (R90, R177) -/

theorem isIrq_iff (ew : EventWord) : isIrq ew = true ↔ ∃ st, decode ew = .instr (.irq st) := by
  unfold isIrq
  split
  · rename_i st hd
    exact ⟨fun _ => ⟨st, hd⟩, fun _ => rfl⟩
  · rename_i hne
    exact ⟨nofun, fun ⟨st, hd⟩ => absurd hd (hne st)⟩

/-- Everything is accepted in main context; in a call phase everything but an `IRQ` is. -/
theorem accepts_iff (phase : Svc) (x : Input) :
    accepts phase x = true ↔ phase = .idle ∨ ∀ ew st, x = .word ew → decode ew ≠ .instr (.irq st) := by
  cases x with
  | resetPin => exact ⟨fun _ => .inr nofun, fun _ => rfl⟩
  | word ew =>
    have h : accepts phase (.word ew) = true ↔ phase = .idle ∨ ¬ isIrq ew = true := by simp [accepts]
    rw [h, isIrq_iff]
    refine or_congr_right ⟨fun hn ew' st hw hd => ?_, fun hn ⟨st, hd⟩ => hn ew st rfl hd⟩
    cases hw
    exact hn ⟨st, hd⟩

/-- What is not accepted is an `IRQ` that waits for the end of a service. -/
theorem not_accepts_iff (phase : Svc) (x : Input) :
    ¬ accepts phase x = true ↔ phase ≠ .idle ∧ ∃ ew st, x = .word ew ∧ decode ew = .instr (.irq st) := by
  rw [accepts_iff]
  push Not
  rfl

/-! ## The input taken next (R68) -/

theorem nextInput_cons_of_accepts {phase : Svc} {x : Input} (rest : List Input) (h : accepts phase x = true) :
    nextInput phase (x :: rest) = some (x, rest) := by
  simp [nextInput, h]

/-- An input that is not accepted is passed over and keeps its place. -/
theorem nextInput_cons_of_not_accepts {phase : Svc} {x : Input} (rest : List Input) (h : ¬ accepts phase x = true) :
    nextInput phase (x :: rest) = (nextInput phase rest).map (Prod.map id (x :: ·)) := by
  rw [nextInput, if_neg h]
  cases nextInput phase rest <;> rfl

/-- The input taken is the first accepted one, and the others stay in their order. -/
theorem nextInput_eq_some_iff {phase : Svc} {xs : List Input} {x : Input} {left : List Input} :
    nextInput phase xs = some (x, left) ↔
      ∃ before after, xs = before ++ x :: after ∧ left = before ++ after ∧
        (∀ y ∈ before, ¬ accepts phase y = true) ∧ accepts phase x = true := by
  induction xs generalizing left with
  | nil => simp [nextInput]
  | cons y rest ih =>
    by_cases hy : accepts phase y = true
    · rw [nextInput_cons_of_accepts rest hy]
      constructor
      · rintro ⟨⟩
        exact ⟨[], rest, rfl, rfl, nofun, hy⟩
      · rintro ⟨_ | ⟨b, before⟩, after, hxs, rfl, hbefore, -⟩
        · cases hxs
          rfl
        · cases hxs
          exact absurd hy (hbefore y (by simp))
    · rw [nextInput_cons_of_not_accepts rest hy]
      constructor
      · intro h
        obtain ⟨⟨z, left'⟩, hz, ⟨⟩⟩ := Option.map_eq_some_iff.mp h
        obtain ⟨before, after, rfl, rfl, hbefore, hx⟩ := ih.mp hz
        exact ⟨y :: before, after, rfl, rfl, by simpa [hy] using hbefore, hx⟩
      · rintro ⟨_ | ⟨b, before⟩, after, hxs, rfl, hbefore, hx⟩
        · cases hxs
          exact absurd hx hy
        · cases hxs
          rw [ih.mpr ⟨before, after, rfl, rfl, fun z hz => hbefore z (by simp [hz]), hx⟩]
          rfl

theorem accepts_of_nextInput {phase : Svc} {xs : List Input} {x : Input} {left : List Input}
    (h : nextInput phase xs = some (x, left)) : accepts phase x = true := by
  obtain ⟨-, -, -, -, -, hx⟩ := nextInput_eq_some_iff.mp h
  exact hx

/-- An `IRQ` is taken in main context only (R177). -/
theorem idle_of_nextInput_irq {phase : Svc} {xs : List Input} {ew : EventWord} {left : List Input} {st : Status}
    (h : nextInput phase xs = some (.word ew, left)) (hd : decode ew = .instr (.irq st)) : phase = .idle :=
  ((accepts_iff phase _).mp (accepts_of_nextInput h)).resolve_right fun hne => hne ew st rfl hd

/-- Settles O8: an input is taken when it is the first accepted one; what is accepted and what waits, in the words of the
spec, is `accepts_iff` and `not_accepts_iff`. -/
theorem inputsTakenInArrivalOrder : Obligations.InputsTakenInArrivalOrder := by
  intro phase xs x left
  rw [nextInput_eq_some_iff]
  simp only [accepts_iff phase x, not_accepts_iff]

/-! ## What a step runs -/

theorem step_of_nextInput_none {s : State} (h : nextInput s.svc s.inbox = none) : step s = .next s := by
  simp [step, takeInput, h]

theorem step_of_nextInput_some {s : State} {x : Input} {left : List Input} (h : nextInput s.svc s.inbox = some (x, left)) :
    step s = runInput x { s with inbox := left } := by
  simp [step, takeInput, h]

theorem runWord_of_instr {ew : EventWord} {i : Instr} (h : decode ew = .instr i) (s : State) :
    runWord ew s = exec i s := by
  simp [runWord, h]

/-- Settles O6: the step runs the input taken, and in main context every input is accepted. -/
theorem stepRunsTheDecodedInstruction : Obligations.StepRunsTheDecodedInstruction := by
  refine ⟨fun s ew left i hn hd => ?_, fun s => step_of_nextInput_none, fun s x rest hs hin => ?_⟩
  · exact (step_of_nextInput_some hn).trans (runWord_of_instr hd _)
  · rw [hin]
    exact nextInput_cons_of_accepts rest ((accepts_iff s.svc x).mpr (.inl hs))

/-! ## Reads of the status register (R62, R175) -/

theorem count_statusRead_append {out added : List OutEvent} (h : .statusRead ∉ added) :
    (out ++ added).count .statusRead = out.count .statusRead := by
  rw [List.count_append, List.count_eq_zero_of_not_mem h, Nat.add_zero]

/-- Taking the interrupt reads the status register once and latches the word read. -/
theorem State.enterService_statusRead (s : State) (st : Status) :
    (s.enterService st).out.count .statusRead = s.out.count .statusRead + 1 ∧ (s.enterService st).slatch = st := by
  obtain ⟨phase, calls, ht, hcalls⟩ := s.enterService_frame st
  have hnone : .statusRead ∉ calls := by
    obtain ⟨rfl, -⟩ | ⟨d, h, ch, rfl, -⟩ := hcalls <;> simp
  rw [ht]
  refine ⟨?_, rfl⟩
  rw [List.append_cons, count_statusRead_append hnone, List.count_append, List.count_singleton_self]

theorem State.serviceRx_statusRead (s : State) : s.serviceRx.out.count .statusRead = s.out.count .statusRead := by
  obtain ⟨phase, calls, ht, hcalls⟩ := s.serviceRx_frame
  rw [ht]
  exact count_statusRead_append (by obtain ⟨rfl, -⟩ | ⟨h, ch, rfl, -⟩ := hcalls <;> simp)

/-- No instruction but `IRQ` reads the status register. -/
theorem exec_statusRead_of_ne_irq {i : Instr} {s t : State} (h : exec i s = .next t) (hi : ∀ st, i ≠ .irq st) :
    t.out.count .statusRead = s.out.count .statusRead := by
  have ht := exec_next h
  cases i with
  | irq st => exact absurd rfl (hi st)
  | ret =>
    obtain ⟨-, rfl⟩ | ⟨-, rfl⟩ := ht
    · exact s.serviceRx_statusRead
    · rfl
  | _ =>
    change t = _ at ht
    simp [ht]

/-- Settles O41: an `IRQ` that is taken finds no service in progress, so it is served; nothing else reads the status
register. -/
theorem oneStatusReadPerService : Obligations.OneStatusReadPerService := by
  intro s t h
  refine ⟨fun ew left st hn hd => ?_, fun hnone => ?_⟩
  · have hexec : exec (.irq st) { s with inbox := left } = .next t := by
      rw [← h, step_of_nextInput_some hn]
      exact (runWord_of_instr hd _).symm
    obtain ⟨-, rfl⟩ | ⟨hbusy, -⟩ := exec_next hexec
    · exact State.enterService_statusRead _ st
    · exact absurd (idle_of_nextInput_irq hn hd) hbusy
  · obtain ⟨-, rfl⟩ | ⟨left, -, rfl⟩ | ⟨ew, left, i, hn, hd, hexec⟩ := step_next h
    · rfl
    · rfl
    · exact exec_statusRead_of_ne_irq (s := { s with inbox := left }) hexec fun st hi => hnone ew left st hn (hi ▸ hd)

end Sys2Proof.Machine

/-! PROOFS. The statements about the event words (30_encoding.md R80 to R90). Each operand of an event word is one field of
its bits, so that a word decodes to an instruction exactly when its fields are those of the encoding. -/

namespace Sys2Proof

/-! ## Fields of a word -/

/-- A word is `{a, b}` exactly when its upper bits are `a` and its lower bits are `b`. -/
theorem eq_append_iff {m n : Nat} {x : BitVec (m + n)} {a : BitVec m} {b : BitVec n} :
    x = a ++ b ↔ x.extractLsb' n m = a ∧ x.extractLsb' 0 n = b := by
  constructor
  · rintro rfl
    exact ⟨BitVec.extractLsb'_append_eq_left, BitVec.extractLsb'_append_eq_right⟩
  · rintro ⟨rfl, rfl⟩
    exact BitVec.extractLsb'_append_extractLsb'.symm

/-- A field of a field is a field of the whole word. -/
theorem extractLsb'_extractLsb' {w outer inner : Nat} (x : BitVec w) (start offset : Nat) (h : offset + inner ≤ outer) :
    (x.extractLsb' start outer).extractLsb' offset inner = x.extractLsb' (start + offset) inner := by
  ext i hi
  have hin : offset + i < outer := by omega
  simp [BitVec.getElem_extractLsb', hin, Nat.add_assoc]

/-- A field of `CW` is the field of the event word 32 bits higher (R80). -/
theorem extractLsb'_commandOf (ew : EventWord) (start : Nat) {len : Nat} (h : start + len ≤ 16) :
    (commandOf ew).extractLsb' start len = ew.extractLsb' (32 + start) len :=
  extractLsb'_extractLsb' ew 32 start h

theorem opcodeOf_eq_extractLsb' (ew : EventWord) : opcodeOf ew = ew.extractLsb' 44 4 :=
  extractLsb'_commandOf ew 12 (by decide)

/-! ## Masks (R82 to R87) -/

/-- A mask of ones below bit `n` yields 0 on exactly the words whose `n` lowest bits are 0. -/
theorem and_lowMask_eq_zero_iff {m n : Nat} (x : BitVec (m + n)) :
    x &&& (BitVec.allOnes n).setWidth (m + n) = 0#(m + n) ↔ x.extractLsb' 0 n = 0#n := by
  have hzero : 0#(m + n) = 0#m ++ 0#n := BitVec.zero_append_zero.symm
  rw [BitVec.and_setWidth_allOnes, BitVec.setWidth_eq_extractLsb' (by omega), hzero, BitVec.append_right_inj]

theorem and_mask10_eq_zero_iff (cw : CommandWord) : cw &&& 0x03FF#16 = 0#16 ↔ cw.extractLsb' 0 10 = 0#10 :=
  and_lowMask_eq_zero_iff (m := 6) (n := 10) cw

theorem and_mask11_eq_zero_iff (cw : CommandWord) : cw &&& 0x07FF#16 = 0#16 ↔ cw.extractLsb' 0 11 = 0#11 :=
  and_lowMask_eq_zero_iff (m := 5) (n := 11) cw

theorem and_mask12_eq_zero_iff (cw : CommandWord) : cw &&& 0x0FFF#16 = 0#16 ↔ cw.extractLsb' 0 12 = 0#12 :=
  and_lowMask_eq_zero_iff (m := 4) (n := 12) cw

/-- The mask of a configure word's must-be-zero bit. -/
theorem and_bit8_eq_zero_iff (cw : CommandWord) : cw &&& 0x0100#16 = 0#16 ↔ cw.getLsbD 8 = false := by
  have hmask : 0x0100#16 = BitVec.twoPow 16 8 := rfl
  rw [hmask, BitVec.and_twoPow]
  cases cw.getLsbD 8 <;> decide

/-- The mask of a configure word's audio mode. -/
theorem and_audioModeMask (cw : CommandWord) :
    cw &&& 0x0C00#16 = (0#4 ++ (cw.extractLsb' 10 2 ++ 0#10 : BitVec (2 + 10)) : BitVec (4 + 12)) := by
  have hones : cw.extractLsb' 10 2 &&& 3#2 = cw.extractLsb' 10 2 := BitVec.and_allOnes
  rw [eq_append_iff (m := 4) (n := 12), eq_append_iff (m := 2) (n := 10)]
  simp [BitVec.extractLsb'_and, extractLsb'_extractLsb', hones]

theorem and_audioModeMask_eq_iff (cw : CommandWord) : cw &&& 0x0C00#16 = 0x0C00#16 ↔ cw.extractLsb' 10 2 = 3#2 := by
  have hmask : 0x0C00#16 = (0#4 ++ (3#2 ++ 0#10 : BitVec (2 + 10)) : BitVec (4 + 12)) := rfl
  rw [and_audioModeMask, hmask, BitVec.append_right_inj, BitVec.append_left_inj]

/-- The opcode's mask. -/
theorem opcodeBits_eq_append (ew : EventWord) : WellFormed.opcodeBits ew = (opcodeOf ew ++ 0#12 : BitVec (4 + 12)) := by
  have hones : opcodeOf ew &&& 0xF#4 = opcodeOf ew := BitVec.and_allOnes
  rw [WellFormed.opcodeBits, eq_append_iff (m := 4) (n := 12)]
  simp only [BitVec.extractLsb'_and]
  exact ⟨hones, BitVec.and_zero⟩

/-! ## Codes (R82, R83) -/

theorem extractLsb'_one_eq_ofBool (cw : CommandWord) (i : Nat) : cw.extractLsb' i 1 = BitVec.ofBool (cw.getLsbD i) := by
  rw [BitVec.getLsbD_eq_extractLsb']
  generalize cw.extractLsb' i 1 = b
  revert b
  decide

theorem ofBool_eq_zero_iff (b : Bool) : BitVec.ofBool b = 0#1 ↔ b = false :=
  BitVec.ofBool_eq_iff_eq (b' := false)

theorem audioModeOfCode_eq_some_iff (c : BitVec 2) (am : AudioMode) : audioModeOfCode c = some am ↔ c = am.code := by
  revert c
  cases am <;> decide

theorem audioModeOfCode_eq_none_iff (c : BitVec 2) : audioModeOfCode c = none ↔ c = 3#2 := by
  revert c
  decide

theorem clockModeOfBit_eq_iff (b : Bool) (cm : ClockMode) : clockModeOfBit b = cm ↔ BitVec.ofBool b = cm.code := by
  cases b <;> cases cm <;> decide

theorem dirOfBit_eq_iff (b : Bool) (d : Dir) : dirOfBit b = d ↔ BitVec.ofBool b = d.code := by
  cases b <;> cases d <;> decide

/-! ## The fields of an encoding -/

/-- `CW` of format CFG (R82). -/
def configureWord (op : BitVec 4) (am : AudioMode) (cm : ClockMode) (bpc : BitsPerChannel) : CommandWord :=
  op ++ am.code ++ cm.code ++ 0#1 ++ bpc

theorem encodeCommand_cfgtx (am : AudioMode) (cm : ClockMode) (bpc : BitsPerChannel) :
    encodeCommand (.cfgtx am cm bpc) = configureWord 0x1#4 am cm bpc := rfl

theorem encodeCommand_cfgrx (am : AudioMode) (cm : ClockMode) (bpc : BitsPerChannel) :
    encodeCommand (.cfgrx am cm bpc) = configureWord 0x2#4 am cm bpc := rfl

/-- The fields of format CFG. -/
theorem eq_configureWord_iff (cw : CommandWord) (op : BitVec 4) (am : AudioMode) (cm : ClockMode) (bpc : BitsPerChannel) :
    cw = configureWord op am cm bpc ↔ cw.extractLsb' 12 4 = op ∧ cw.extractLsb' 10 2 = am.code ∧
      clockModeOfBit (cw.getLsbD 9) = cm ∧ cw.getLsbD 8 = false ∧ cw.extractLsb' 0 8 = bpc := by
  rw [configureWord, eq_append_iff (m := 8) (n := 8), eq_append_iff (m := 7) (n := 1), eq_append_iff (m := 6) (n := 1),
    eq_append_iff (m := 4) (n := 2)]
  simp [extractLsb'_extractLsb', extractLsb'_one_eq_ofBool, ofBool_eq_zero_iff, clockModeOfBit_eq_iff, and_assoc]

/-- The fields of format EN (R83). -/
theorem eq_encodeCommand_seten_iff (cw : CommandWord) (d : Dir) (b : Bool) :
    cw = encodeCommand (.seten d b) ↔ cw.extractLsb' 12 4 = 0x3#4 ∧ dirOfBit (cw.getLsbD 11) = d ∧ cw.getLsbD 10 = b ∧
      cw.extractLsb' 0 10 = 0#10 := by
  rw [encodeCommand, eq_append_iff (m := 6) (n := 10), eq_append_iff (m := 5) (n := 1), eq_append_iff (m := 4) (n := 1)]
  simp [extractLsb'_extractLsb', extractLsb'_one_eq_ofBool, BitVec.ofBool_eq_iff_eq, dirOfBit_eq_iff, and_assoc]

/-- The fields of format CB (R84). -/
theorem eq_encodeCommand_setcb_iff (cw : CommandWord) (d : Dir) (h : Handle) :
    cw = encodeCommand (.setcb d h) ↔ cw.extractLsb' 12 4 = 0x4#4 ∧ dirOfBit (cw.getLsbD 11) = d ∧
      cw.extractLsb' 0 11 = 0#11 := by
  rw [encodeCommand, eq_append_iff (m := 5) (n := 11), eq_append_iff (m := 4) (n := 1)]
  simp [extractLsb'_extractLsb', extractLsb'_one_eq_ofBool, dirOfBit_eq_iff, and_assoc]

/-! ## The decoder by opcode (R81) -/

/-- The opcode of an instruction. -/
def Instr.opcode (i : Instr) : BitVec 4 :=
  match i with
  | .cfgtx .. => 0x1#4
  | .cfgrx .. => 0x2#4
  | .seten .. => 0x3#4
  | .setcb .. => 0x4#4
  | .wrsmp _ => 0x5#4
  | .rdsmp => 0x6#4
  | .irq _ => 0x7#4
  | .ret => 0x8#4

/-- What the decoder does with an event word that has the opcode of `i`: the operands are the word's, not those of `i`. -/
def decodeAs (i : Instr) (ew : EventWord) : Decoded :=
  match i with
  | .cfgtx .. => decodeConfigure .cfgtx ew
  | .cfgrx .. => decodeConfigure .cfgrx ew
  | .seten .. => requireZero 0x03FF#16 ew (.seten (dirOfBit ((commandOf ew).getLsbD 11)) ((commandOf ew).getLsbD 10))
  | .setcb .. => requireZero 0x07FF#16 ew (.setcb (dirOfBit ((commandOf ew).getLsbD 11)) (operandOf ew))
  | .wrsmp _ => requireZero 0x0FFF#16 ew (.wrsmp (operandOf ew))
  | .rdsmp => requireZero 0x0FFF#16 ew .rdsmp
  | .irq _ => requireZero 0x0FFF#16 ew (.irq (operandOf ew))
  | .ret => requireZero 0x0FFF#16 ew .ret

/-- Formats DATA, NONE and STAT have the opcode as their only field (R85 to R87). -/
theorem eq_encodeCommand_iff_of_opcode_only {i : Instr} (h : encodeCommand i = (i.opcode ++ 0#12 : BitVec (4 + 12)))
    (cw : CommandWord) : cw = encodeCommand i ↔ cw.extractLsb' 12 4 = i.opcode ∧ cw.extractLsb' 0 12 = 0#12 := by
  rw [h, eq_append_iff (m := 4) (n := 12)]

theorem decode_of_opcode {ew : EventWord} {i : Instr} (h : opcodeOf ew = i.opcode) : decode ew = decodeAs i ew := by
  unfold decode
  rw [h]
  cases i <;> rfl

/-- An opcode is an instruction's or one of those that R89 reserves. -/
theorem opcode_cases (op : BitVec 4) : (∃ i : Instr, op = i.opcode) ∨ op = 0x0#4 ∨ 9 ≤ op.toNat := by
  obtain h | h | h | h | h | h | h | h | h : op = 0x1#4 ∨ op = 0x2#4 ∨ op = 0x3#4 ∨ op = 0x4#4 ∨ op = 0x5#4 ∨
      op = 0x6#4 ∨ op = 0x7#4 ∨ op = 0x8#4 ∨ op = 0x0#4 ∨ 9 ≤ op.toNat := by
    revert op
    decide
  · exact .inl ⟨.cfgtx .monoLeft .external 0#8, h⟩
  · exact .inl ⟨.cfgrx .monoLeft .external 0#8, h⟩
  · exact .inl ⟨.seten .tx false, h⟩
  · exact .inl ⟨.setcb .tx 0#32, h⟩
  · exact .inl ⟨.wrsmp 0#32, h⟩
  · exact .inl ⟨.rdsmp, h⟩
  · exact .inl ⟨.irq 0#32, h⟩
  · exact .inl ⟨.ret, h⟩
  · exact .inr h

/-- None of the eight opcodes is one of those that R89 reserves. -/
theorem decode_of_reserved_opcode {ew : EventWord} (h : opcodeOf ew = 0x0#4 ∨ 9 ≤ (opcodeOf ew).toNat) :
    decode ew = .reserved .opcode := by
  unfold decode
  split <;> simp_all

theorem decodeConfigure_eq_instr_iff (mk : AudioMode → ClockMode → BitsPerChannel → Instr) (ew : EventWord) (i : Instr) :
    decodeConfigure mk ew = .instr i ↔ ∃ am,
      (commandOf ew).extractLsb' 10 2 = am.code ∧ (commandOf ew).getLsbD 8 = false ∧
      mk am (clockModeOfBit ((commandOf ew).getLsbD 9)) ((commandOf ew).extractLsb' 0 8) = i := by
  unfold decodeConfigure
  simp only [← audioModeOfCode_eq_some_iff]
  cases audioModeOfCode ((commandOf ew).extractLsb' 10 2) with
  | none => simp
  | some am => simp [requireZero_eq_instr_iff, and_bit8_eq_zero_iff]

theorem opcode_eq_of_decodeAs {i j : Instr} {ew : EventWord} (h : decodeAs i ew = .instr j) : i.opcode = j.opcode := by
  cases i with
  | cfgtx | cfgrx =>
    obtain ⟨am, -, -, rfl⟩ := (decodeConfigure_eq_instr_iff ..).mp h
    rfl
  | _ =>
    obtain ⟨-, rfl⟩ := (requireZero_eq_instr_iff ..).mp h
    rfl

/-- A word decodes to `i` only when its opcode is that of `i`. -/
theorem decode_eq_instr_iff_decodeAs (ew : EventWord) (i : Instr) :
    decode ew = .instr i ↔ opcodeOf ew = i.opcode ∧ decodeAs i ew = .instr i := by
  constructor
  · intro h
    obtain ⟨j, hj⟩ | hres := opcode_cases (opcodeOf ew)
    · rw [decode_of_opcode hj] at h
      have hop : opcodeOf ew = i.opcode := hj.trans (opcode_eq_of_decodeAs h)
      exact ⟨hop, by rw [← decode_of_opcode hop, decode_of_opcode hj, h]⟩
    · rw [decode_of_reserved_opcode hres] at h
      cases h
  · rintro ⟨hop, h⟩
    rw [decode_of_opcode hop, h]

/-! ## Decoding and encoding -/

/-- The bits of `OP` that the format of `i` does not ignore. -/
def operandMask (i : Instr) : BitVec 32 :=
  match i with
  | .setcb .. | .wrsmp _ | .irq _ => BitVec.allOnes 32
  | _ => 0#32

theorem significantBits_eq_append (i : Instr) :
    significantBits i = (BitVec.allOnes 16 ++ operandMask i : BitVec (16 + 32)) := by
  have hall : 0xFFFFFFFFFFFF#48 = (BitVec.allOnes 16 ++ BitVec.allOnes 32 : BitVec (16 + 32)) := by decide
  have hcw : 0xFFFF00000000#48 = (BitVec.allOnes 16 ++ 0#32 : BitVec (16 + 32)) := by decide
  cases i with
  | setcb | wrsmp | irq => exact hall
  | _ => exact hcw

theorem encodeOperand_and_operandMask (i : Instr) : encodeOperand i &&& operandMask i = encodeOperand i := by
  cases i with
  | setcb | wrsmp | irq => exact BitVec.and_allOnes
  | _ => exact BitVec.and_zero

/-- A word carries the encoding on the significant bits when its command word and its operand do. -/
theorem and_significantBits_eq_encode_iff (ew : EventWord) (i : Instr) :
    ew &&& significantBits i = encode i ↔
      commandOf ew = encodeCommand i ∧ operandOf ew &&& operandMask i = encodeOperand i := by
  have hand : ew &&& significantBits i = (commandOf ew ++ (operandOf ew &&& operandMask i) : BitVec (16 + 32)) := by
    conv_lhs => rw [eventWord_eq_append ew, significantBits_eq_append, BitVec.and_append, BitVec.and_allOnes]
  rw [hand, encode, append_eq_append_iff]

/-- The decoder reads `i` exactly from the words that carry its encoding: on both sides stand the opcode, the fields of the
command word, its zero bits, and the operand where the format has one. -/
theorem decode_eq_instr_iff (ew : EventWord) (i : Instr) :
    decode ew = .instr i ↔ commandOf ew = encodeCommand i ∧ operandOf ew &&& operandMask i = encodeOperand i := by
  rw [decode_eq_instr_iff_decodeAs, opcodeOf]
  cases i with
  | cfgtx am cm bpc | cfgrx am cm bpc =>
    simp only [encodeCommand_cfgtx, encodeCommand_cfgrx, eq_configureWord_iff, decodeAs, decodeConfigure_eq_instr_iff,
      Instr.opcode, operandMask, encodeOperand, BitVec.and_zero, Instr.cfgtx.injEq, Instr.cfgrx.injEq]
    grind
  | seten d b =>
    rw [eq_encodeCommand_seten_iff, decodeAs, requireZero_eq_instr_iff, and_mask10_eq_zero_iff]
    simp only [Instr.opcode, operandMask, encodeOperand, BitVec.and_zero, Instr.seten.injEq]
    tauto
  | setcb d h =>
    rw [eq_encodeCommand_setcb_iff, decodeAs, requireZero_eq_instr_iff, and_mask11_eq_zero_iff]
    simp only [Instr.opcode, operandMask, encodeOperand, BitVec.and_allOnes, Instr.setcb.injEq]
    tauto
  | _ =>
    rw [eq_encodeCommand_iff_of_opcode_only (by simp [encodeCommand, Instr.opcode]), decodeAs,
      requireZero_eq_instr_iff, and_mask12_eq_zero_iff]
    simp only [operandMask, encodeOperand, BitVec.and_allOnes, BitVec.and_zero, Instr.wrsmp.injEq, Instr.irq.injEq,
      and_assoc]

/-- Settles O3: the masked event word equals the encoding when its command word and its masked operand do. -/
theorem decodedExactlyBySignificantBits : Obligations.DecodedExactlyBySignificantBits := by
  intro ew i
  rw [decode_eq_instr_iff, and_significantBits_eq_encode_iff]

/-- Settles O2: the encoding of `i` carries itself, so `decode_eq_instr_iff` reads `i` from it. -/
theorem decodeOfEncodeIsTheInstruction : Obligations.DecodeOfEncodeIsTheInstruction := by
  intro i
  rw [decode_eq_instr_iff, encode, commandOf_append, operandOf_append]
  exact ⟨rfl, encodeOperand_and_operandMask i⟩

/-- Settles O1: the decoder evaluated on the words of V7. -/
theorem specWordsDecode : Obligations.SpecWordsDecode := by
  unfold Obligations.SpecWordsDecode
  decide

/-! ## Reserved words (R89) -/

theorem exists_requireZero_eq_reserved_iff (mask : CommandWord) (ew : EventWord) (i : Instr) :
    (∃ why, requireZero mask ew i = .reserved why) ↔ commandOf ew &&& mask ≠ 0#16 := by
  unfold requireZero
  split <;> simp_all

theorem exists_decodeConfigure_eq_reserved_iff (mk : AudioMode → ClockMode → BitsPerChannel → Instr) (ew : EventWord) :
    (∃ why, decodeConfigure mk ew = .reserved why) ↔
      (commandOf ew).getLsbD 8 = true ∨ (commandOf ew).extractLsb' 10 2 = 3#2 := by
  unfold decodeConfigure
  simp only [← audioModeOfCode_eq_none_iff]
  cases audioModeOfCode ((commandOf ew).extractLsb' 10 2) with
  | none => simp
  | some am => simp [exists_requireZero_eq_reserved_iff, and_bit8_eq_zero_iff]

/-- The three cases of R89, format by format. -/
theorem exists_decode_eq_reserved_iff (ew : EventWord) :
    (∃ why, decode ew = .reserved why) ↔
      ((opcodeOf ew = 0x0#4 ∨ 9 ≤ (opcodeOf ew).toNat) ∨
       ((opcodeOf ew = 0x1#4 ∨ opcodeOf ew = 0x2#4) ∧
          ((commandOf ew).getLsbD 8 = true ∨ (commandOf ew).extractLsb' 10 2 = 3#2)) ∨
       (opcodeOf ew = 0x3#4 ∧ (commandOf ew).extractLsb' 0 10 ≠ 0#10) ∨
       (opcodeOf ew = 0x4#4 ∧ (commandOf ew).extractLsb' 0 11 ≠ 0#11) ∨
       ((5 ≤ (opcodeOf ew).toNat ∧ (opcodeOf ew).toNat ≤ 8) ∧ (commandOf ew).extractLsb' 0 12 ≠ 0#12)) := by
  obtain ⟨i, hop⟩ | hres := opcode_cases (opcodeOf ew)
  · rw [decode_of_opcode hop, hop]
    cases i with
    | cfgtx | cfgrx => simp [Instr.opcode, decodeAs, exists_decodeConfigure_eq_reserved_iff]
    | _ =>
      simp [Instr.opcode, decodeAs, exists_requireZero_eq_reserved_iff, and_mask10_eq_zero_iff, and_mask11_eq_zero_iff,
        and_mask12_eq_zero_iff]
  · simp [decode_of_reserved_opcode hres, hres]

theorem exists_decode_eq_instr_iff (ew : EventWord) :
    (∃ i, decode ew = .instr i) ↔ ¬ ∃ why, decode ew = .reserved why := by
  cases decode ew <;> simp

/-- On a word with the opcode of an instruction, the match and mask checks are the decoder's. -/
theorem eventWord_iff_of_opcode {ew : EventWord} {i : Instr} (h : opcodeOf ew = i.opcode) :
    WellFormed.eventWord ew = true ↔ ¬ ∃ why, decodeAs i ew = .reserved why := by
  have hcommand : WellFormed.command ew = commandOf ew := rfl
  have hbits : WellFormed.opcodeBits ew = (i.opcode ++ 0#12 : BitVec (4 + 12)) := h ▸ opcodeBits_eq_append ew
  cases i with
  | cfgtx | cfgrx =>
    simp [decodeAs, exists_decodeConfigure_eq_reserved_iff, WellFormed.eventWord, WellFormed.opcodeKnown,
      WellFormed.zerosKept, WellFormed.audioModeLegal, WellFormed.zeroMask, WellFormed.isConfigure, hbits, hcommand,
      Instr.opcode, and_bit8_eq_zero_iff, and_audioModeMask_eq_iff]
  | _ =>
    simp [decodeAs, exists_requireZero_eq_reserved_iff, WellFormed.eventWord, WellFormed.opcodeKnown,
      WellFormed.zerosKept, WellFormed.audioModeLegal, WellFormed.zeroMask, WellFormed.isConfigure, hbits, hcommand,
      Instr.opcode]

theorem eventWord_of_reserved_opcode {ew : EventWord} (h : opcodeOf ew = 0x0#4 ∨ 9 ≤ (opcodeOf ew).toNat) :
    WellFormed.eventWord ew = false := by
  have hknown : WellFormed.opcodeKnown ew = false := by
    rw [WellFormed.opcodeKnown, opcodeBits_eq_append]
    generalize opcodeOf ew = op at h
    revert op
    decide
  rw [WellFormed.eventWord, hknown, Bool.false_and, Bool.false_and]

/-- Settles O4: for each opcode the checks pass on exactly the words that the decoder does not call reserved. -/
theorem decoderAcceptsExactlyWellFormedWords : Obligations.DecoderAcceptsExactlyWellFormedWords := by
  intro ew
  rw [exists_decode_eq_instr_iff]
  obtain ⟨i, hop⟩ | hres := opcode_cases (opcodeOf ew)
  · rw [decode_of_opcode hop, eventWord_iff_of_opcode hop]
  · simp [decode_of_reserved_opcode hres, eventWord_of_reserved_opcode hres]

end Sys2Proof

namespace Sys2Proof.Machine

/-! ## Steps that take a reserved word or a placed word (R89, R90) -/

theorem runWord_of_reserved {ew : EventWord} {why : Reserved} (h : decode ew = .reserved why) (s : State) :
    runWord ew s = .refused (.reservedEventWord why) := by
  simp [runWord, h]

/-- Settles O5: R89 in the fields of `CW`, moved up by 32 bits to the event word. -/
theorem reservedWordsHaveNoMeaning : Obligations.ReservedWordsHaveNoMeaning := by
  refine ⟨fun ew => ?_, fun s ew left why hn hd => ?_⟩
  · have hbit : (commandOf ew).getLsbD 8 = ew.getLsbD 40 := by simp [commandOf]
    rw [exists_decode_eq_reserved_iff, opcodeOf_eq_extractLsb', hbit, extractLsb'_commandOf ew 10 (by decide),
      extractLsb'_commandOf ew 0 (by decide), extractLsb'_commandOf ew 0 (by decide),
      extractLsb'_commandOf ew 0 (by decide)]
  · exact (step_of_nextInput_some hn).trans (runWord_of_reserved hd _)

theorem decodeTableWord_eq_some_iff (nbits w : Nat) (i : Instr) :
    decodeTableWord nbits w = some i ↔ decode (tableWord nbits w) = .instr i := by
  unfold decodeTableWord
  cases decode (tableWord nbits w) <;> simp

/-- Settles O7: the placed word is the oldest input, and it is accepted. -/
theorem placedWordRunsNext : Obligations.PlacedWordRunsNext := by
  intro s nbits w i hw hacc
  have hd : decode (tableWord nbits w) = .instr i := (decodeTableWord_eq_some_iff nbits w i).mp hw
  have haccepts : accepts s.svc (.word (tableWord nbits w)) = true := by
    refine (accepts_iff ..).mpr (hacc.imp_right fun hne ew st hew hirq => hne st ?_)
    cases hew
    exact Decoded.instr.inj (hd.symm.trans hirq)
  have hnext : nextInput s.svc (s.withFetchWord nbits w).inbox = some (.word (tableWord nbits w), s.inbox) :=
    nextInput_cons_of_accepts s.inbox haccepts
  have hrun : runInput (.word (tableWord nbits w)) s = exec i s := runWord_of_instr hd s
  exact (step_of_nextInput_some hnext).trans hrun

end Sys2Proof.Machine

/-! PROOFS. The statements about the mode resolver (40_mode_resolver.md R100 to R115). Each row of the table of R115 is the
field rules evaluated, so `Resolve` is the table, and a configure command writes and emits what the table gives. -/

namespace Sys2Proof.Machine

open Sys2Proof.Safety

/-! ## One field of a packed descriptor (R23, R30) -/

theorem fdDatlen_packFd (fsos : BitVec 1) (nslot : BitVec 2) (msbf : BitVec 1) (datlen : BitVec 5) :
    fdDatlen (packFd fsos nslot msbf datlen) = datlen :=
  BitVec.extractLsb'_append_eq_right

/-- The mask 0xFFE0 clears `DATLEN` and keeps the fields above it. -/
theorem packFd_replace_datlen (fsos : BitVec 1) (nslot : BitVec 2) (msbf : BitVec 1) (old new : BitVec 5) :
    (packFd fsos nslot msbf old &&& 0xFFE0#16) ||| new.setWidth 16 = packFd fsos nslot msbf new := by
  have hmask : 0xFFE0#16 = (BitVec.allOnes 11 ++ 0#5 : BitVec (11 + 5)) := rfl
  have hclear : packFd fsos nslot msbf old &&& 0xFFE0#16 = packFd fsos nslot msbf 0#5 := by
    rw [hmask, packFd, packFd, BitVec.and_append, BitVec.and_allOnes, BitVec.and_zero]
  have hnew : new.setWidth 16 = (0#11 ++ new : BitVec (11 + 5)) := BitVec.setWidth_eq_append (by decide)
  rw [hclear, hnew, packFd, packFd, BitVec.or_append, BitVec.or_zero, BitVec.zero_or]

/-- Bit 4 of a clock descriptor is `CKI`. -/
theorem packCd_xor_bit4 (sttdly : BitVec 8) (cko cki edge : BitVec 1) (start : BitVec 2) (cks : BitVec 1) :
    packCd sttdly cko cki edge start cks ^^^ 0x0010#16 = packCd sttdly cko (cki ^^^ 1#1) edge start cks := by
  have hbit : 0x0010#16 = ((0#11 ++ 1#1 : BitVec (11 + 1)) ++ 0#1 ++ 0#2 ++ 0#1 : BitVec (12 + 1 + 2 + 1)) := rfl
  rw [hbit, packCd, packCd, BitVec.xor_append, BitVec.xor_append, BitVec.xor_append, BitVec.xor_append]
  simp only [BitVec.xor_zero]

/-! ## The clock polarity (R106) -/

theorem edgeCode_clockPolarity_rising (d : Dir) :
    edgeCode (clockPolarity .rising d) = edgeCode (clockPolarity .falling d) ^^^ 1#1 := by
  cases d <;> rfl

theorem edgeCode_clockPolarity_rx (e : Edge) :
    edgeCode (clockPolarity e .rx) = edgeCode (clockPolarity e .tx) ^^^ 1#1 := by
  cases e <;> rfl

/-! ## The frame length (R108) -/

section FrameLength

variable {bpc : BitsPerChannel}

theorem bpcDefined_of_mem (hlo : 1 ≤ bpc.toNat) (hhi : bpc.toNat ≤ 32) : bpcDefined bpc = true := by
  simp [bpcDefined, hlo, hhi]

theorem bpcDefined_of_outside (h : bpc.toNat = 0 ∨ 33 ≤ bpc.toNat) : bpcDefined bpc = false := by
  simp only [bpcDefined, Bool.and_eq_false_iff, decide_eq_false_iff_not]
  omega

theorem frameLength_of_defined (free : BitVec 5) (h : bpcDefined bpc = true) : frameLength free bpc = lengthOf bpc :=
  if_pos h

theorem frameLength_of_undefined (free : BitVec 5) (h : bpcDefined bpc = false) : frameLength free bpc = free := by
  simp [frameLength, h]

theorem toNat_lengthOf (hhi : bpc.toNat ≤ 32) : (lengthOf bpc).toNat = bpc.toNat - 1 := by
  rw [lengthOf, BitVec.toNat_ofNat]
  omega

theorem setWidth_lengthOf (hlo : 1 ≤ bpc.toNat) (hhi : bpc.toNat ≤ 32) :
    (lengthOf bpc).setWidth 16 = bpc.setWidth 16 - 1#16 := by
  unfold lengthOf
  bv_omega

theorem State.drawDatlen_draws_of_undefined (s : State) (h : bpcDefined bpc = false) :
    (s.drawDatlen bpc).draws = s.draws + 1 := by
  simp [State.drawDatlen, h]

end FrameLength

/-! ## `Resolve` is the table (R115) -/

/-- Each of the twelve rows is the field rules evaluated at bits-per-channel 16 and `TX_EDGE = FALLING`. -/
theorem resolverTable_eq (d : Dir) (am : AudioMode) (cm : ClockMode) :
    resolverTable d am cm =
      { cw := encodeCommand (configureInstr d am cm 16#8)
        cks := clockSource cm
        start := startTrigger am cm
        edge := edgeCode (startEdge am)
        cki := edgeCode (clockPolarity .falling d)
        nslot := slotCount am
        datlen := 15#5
        cd := packCd 1#8 0#1 (edgeCode (clockPolarity .falling d)) (edgeCode (startEdge am)) (startTrigger am cm)
          (clockSource cm)
        fd := packFd 0#1 (slotCount am) 1#1 15#5
        mask := pinMask cm } := by
  cases d <;> cases am <;> cases cm <;> rfl

theorem tableCd_eq_packCd (e : Edge) (d : Dir) (am : AudioMode) (cm : ClockMode) :
    tableCd e d am cm = packCd 1#8 0#1 (edgeCode (clockPolarity e d)) (edgeCode (startEdge am)) (startTrigger am cm)
      (clockSource cm) := by
  cases e with
  | falling => rw [tableCd, resolverTable_eq]
  | rising => rw [tableCd, resolverTable_eq, packCd_xor_bit4, edgeCode_clockPolarity_rising]

theorem tableFd_eq_packFd (d : Dir) (am : AudioMode) (cm : ClockMode) (datlen : BitVec 5) :
    tableFd d am cm datlen = packFd 0#1 (slotCount am) 1#1 datlen := by
  rw [tableFd, resolverTable_eq, packFd_replace_datlen]

@[simp] theorem fdDatlen_tableFd (d : Dir) (am : AudioMode) (cm : ClockMode) (datlen : BitVec 5) :
    fdDatlen (tableFd d am cm datlen) = datlen := by
  rw [tableFd_eq_packFd, fdDatlen_packFd]

theorem resolve_eq_table (e : Edge) (free : BitVec 5) (d : Dir) (am : AudioMode) (cm : ClockMode)
    (bpc : BitsPerChannel) :
    resolve e free d am cm bpc =
      ⟨tableCd e d am cm, tableFd d am cm (frameLength free bpc), (resolverTable d am cm).mask⟩ := by
  rw [tableCd_eq_packCd, tableFd_eq_packFd, resolverTable_eq, resolve]

/-- R82: a configure word ignores its operand. -/
theorem decode_encodeCommand_configureInstr (d : Dir) (am : AudioMode) (cm : ClockMode) (bpc : BitsPerChannel)
    (op : BitVec 32) :
    decode (encodeCommand (configureInstr d am cm bpc) ++ op : BitVec (16 + 32)) = .instr (configureInstr d am cm bpc) := by
  rw [decode_eq_instr_iff, commandOf_append, operandOf_append]
  refine ⟨rfl, ?_⟩
  cases d <;> exact BitVec.and_zero

/-- Settles O19: each field of a packed descriptor is the code its rule gives. -/
theorem resolverFieldsFollowTheirRules : Obligations.ResolverFieldsFollowTheirRules := by
  intro e free d am cm bpc
  simp only [resolve, cdCks_packCd, cdEdge_packCd, cdStart_packCd, cdCki_packCd, cdCko_packCd, cdReserved_packCd,
    cdSttdly_packCd, fdMsbf_packFd, fdFsos_packFd, fdReserved_packFd, fdNslot_packFd, fdDatlen_packFd, true_and]
  refine ⟨?cks, ?edge, ?start, ?cki, ?nslot, fun hlo hhi => ?datlen, ?mask⟩
  case cks => cases cm <;> rfl
  case edge => cases am <;> rfl
  case start => cases cm <;> cases am <;> rfl
  case cki => cases d <;> cases e <;> rfl
  case nslot => cases am <;> rfl
  case datlen => rw [frameLength_of_defined free (bpcDefined_of_mem hlo hhi), toNat_lengthOf hhi]
  case mask => cases cm <;> rfl

/-- Settles O20: `Resolve` is the table, whose columns are the fields of its two descriptors. -/
theorem resolverTableHolds : Obligations.ResolverTableHolds := by
  intro d am cm
  refine ⟨fun op => ?_, ?_, fun free => ?_, fun free bpc hlo hhi => ?_⟩
  · rw [resolverTable_eq]
    exact decode_encodeCommand_configureInstr d am cm 16#8 op
  · rw [resolverTable_eq]
    exact ⟨cdCks_packCd .., cdStart_packCd .., cdEdge_packCd .., cdCki_packCd .., fdNslot_packFd .., fdDatlen_packFd ..⟩
  · have hfd : tableFd d am cm (lengthOf 16#8) = (resolverTable d am cm).fd := by
      rw [tableFd_eq_packFd, resolverTable_eq]
      rfl
    rw [resolve_eq_table, frameLength_of_defined free (by decide), hfd, tableCd]
  · rw [resolve_eq_table, resolve_eq_table, frameLength_of_defined free (bpcDefined_of_mem hlo hhi), tableFd,
      setWidth_lengthOf hlo hhi]
    exact ⟨rfl, rfl⟩

/-! ## A configure command writes and emits what the table gives (R100, R101) -/

theorem exec_configureInstr (d : Dir) (am : AudioMode) (cm : ClockMode) (bpc : BitsPerChannel) (s : State) :
    exec (configureInstr d am cm bpc) s = .next (s.configure d am cm bpc) := by
  cases d <;> rfl

section ConfigureTable

variable (s : State) (d : Dir) (am : AudioMode) (cm : ClockMode) {bpc : BitsPerChannel}

theorem State.configure_eq_table :
    s.configure d am cm bpc =
      { s.setRegs d (configuredRegs s d am cm (frameLength (Config.freeDatlen s.draws) bpc)) with
        out := s.out ++ configureEvents s d am cm (frameLength (Config.freeDatlen s.draws) bpc)
        draws := (s.drawDatlen bpc).draws } := by
  rw [State.configure_eq, State.resolved, resolve_eq_table, configuredRegs, configureEvents]

theorem State.configure_of_defined (h : bpcDefined bpc = true) :
    s.configure d am cm bpc =
      { s.setRegs d (configuredRegs s d am cm (lengthOf bpc)) with
        out := s.out ++ configureEvents s d am cm (lengthOf bpc) } := by
  rw [State.configure_eq_table, frameLength_of_defined _ h, State.drawDatlen_of_defined s h, ← s.setRegs_draws d]

theorem State.configure_of_undefined (h : bpcDefined bpc = false) :
    s.configure d am cm bpc =
      { s.setRegs d (configuredRegs s d am cm (Config.freeDatlen s.draws)) with
        out := s.out ++ configureEvents s d am cm (Config.freeDatlen s.draws)
        draws := s.draws + 1 } := by
  rw [State.configure_eq_table, frameLength_of_undefined _ h, State.drawDatlen_draws_of_undefined s h]

theorem State.regs_configure_eq_configuredRegs :
    (s.configure d am cm bpc).regs d = configuredRegs s d am cm (frameLength (Config.freeDatlen s.draws) bpc) := by
  rw [State.configure_eq_table]
  exact s.regs_setRegs_same d _

theorem State.configure_out_eq_configureEvents :
    (s.configure d am cm bpc).out =
      s.out ++ configureEvents s d am cm (frameLength (Config.freeDatlen s.draws) bpc) := by
  rw [State.configure_eq_table]

end ConfigureTable

/-- Settles O21: inside 1..32 `DATLEN` is `lengthOf bpc`, outside the free value drawn. -/
theorem frameLengthIsBitsPerChannelMinusOne : Obligations.FrameLengthIsBitsPerChannelMinusOne := by
  intro d am cm bpc s
  refine ⟨fun hlo hhi => ⟨_, exec_configureInstr .., ?_⟩,
    fun h => ⟨Config.freeDatlen s.draws, _, exec_configureInstr .., ?_⟩⟩
  · rw [State.regs_configure_eq_configuredRegs, frameLength_of_defined _ (bpcDefined_of_mem hlo hhi), configuredRegs,
      fdDatlen_tableFd, toNat_lengthOf hhi]
  · rw [State.regs_configure_eq_configuredRegs, State.configure_out_eq_configureEvents,
      frameLength_of_undefined _ (bpcDefined_of_outside h)]
    exact ⟨rfl, fdDatlen_tableFd .., rfl⟩

/-- Settles O22: the example is the row `CFGTX stereo, external` of the table. -/
theorem cfgtxConfiguresTransmit : Obligations.CfgtxConfiguresTransmit := by
  refine ⟨fun am cm bpc s hlo hhi => ?_, fun am cm bpc s h => ⟨Config.freeDatlen s.draws, ?_⟩, by decide,
    fun s hedge => ⟨_, exec_configureInstr .tx .stereo .external 16#8 s, ?_⟩⟩
  · exact congrArg _ (s.configure_of_defined .tx am cm (bpcDefined_of_mem hlo hhi))
  · exact congrArg _ (s.configure_of_undefined .tx am cm (bpcDefined_of_outside h))
  · rw [s.configure_of_defined .tx .stereo .external (by decide), configuredRegs, configureEvents, hedge]
    exact ⟨rfl, rfl, rfl, rfl, rfl⟩

/-- Settles O23: the example is the row `CFGRX mono-right, external` of the table, with frame length 31. -/
theorem cfgrxConfiguresReceive : Obligations.CfgrxConfiguresReceive := by
  refine ⟨fun am cm bpc s hlo hhi => ?_, fun am cm bpc s h => ⟨Config.freeDatlen s.draws, ?_⟩, by decide,
    fun s hedge => ⟨_, exec_configureInstr .rx .monoRight .external 32#8 s, ?_⟩⟩
  · exact congrArg _ (s.configure_of_defined .rx am cm (bpcDefined_of_mem hlo hhi))
  · exact congrArg _ (s.configure_of_undefined .rx am cm (bpcDefined_of_outside h))
  · rw [s.configure_of_defined .rx .monoRight .external (by decide), configuredRegs, configureEvents, hedge]
    exact ⟨rfl, rfl, rfl, rfl, rfl⟩

/-! ## The other direction (R113) -/

section OtherDirection

variable (s : State) (d : Dir) (r : DirRegs)

theorem ne_other : d ≠ other d := by
  cases d <;> decide

theorem State.setRegs_setRegs_other (q : DirRegs) :
    (s.setRegs (other d) r).setRegs d q = (s.setRegs d q).setRegs (other d) r := by
  cases d <;> rfl

theorem State.drawDatlen_draws_setRegs (e : Dir) (bpc : BitsPerChannel) :
    ((s.setRegs e r).drawDatlen bpc).draws = (s.drawDatlen bpc).draws := by
  unfold State.drawDatlen
  split <;> simp

theorem State.resolved_setRegs (e : Dir) (am : AudioMode) (cm : ClockMode) (bpc : BitsPerChannel) :
    (s.setRegs e r).resolved d am cm bpc = s.resolved d am cm bpc := by
  simp only [State.resolved, State.setRegs_params, State.setRegs_draws]

/-- What the other direction holds is neither read nor written. -/
theorem State.configure_setRegs_other (am : AudioMode) (cm : ClockMode) (bpc : BitsPerChannel) :
    (s.setRegs (other d) r).configure d am cm bpc = (s.configure d am cm bpc).setRegs (other d) r := by
  rw [State.configure_eq, State.configure_eq, State.resolved_setRegs, State.drawDatlen_draws_setRegs,
    State.setRegs_out, s.regs_setRegs_of_ne r (ne_other d), State.setRegs_setRegs_other]
  cases d <;> rfl

end OtherDirection

/-- Settles O24: of the resolver's fields only `CKI` reads the direction. -/
theorem configureReadsNothingOfTheOtherDirection : Obligations.ConfigureReadsNothingOfTheOtherDirection := by
  refine ⟨fun d am cm bpc s r => ⟨_, exec_configureInstr .., ?_, ?_⟩, fun e free am cm bpc => ⟨?_, rfl, rfl⟩⟩
  · exact s.regs_configure_of_ne d am cm bpc (ne_other d).symm
  · rw [exec_configureInstr, State.configure_setRegs_other]
  · have hrx : (resolve e free .rx am cm bpc).cd = (resolve e free .tx am cm bpc).cd ^^^ 0x0010#16 := by
      rw [resolve, resolve, packCd_xor_bit4, edgeCode_clockPolarity_rx]
    rw [hrx, ← BitVec.xor_assoc, BitVec.xor_self, BitVec.zero_xor]

/-! ## Repeating a configure command (R112) -/

theorem State.setRegs_regs (s : State) (d : Dir) : s.setRegs d (s.regs d) = s := by
  cases d <;> rfl

/-- A configured direction already holds what a second issue writes. -/
theorem State.configure_configure_of_defined (s : State) (d : Dir) (am : AudioMode) (cm : ClockMode)
    {bpc : BitsPerChannel} (h : bpcDefined bpc = true) :
    (s.configure d am cm bpc).configure d am cm bpc =
      { s.configure d am cm bpc with
        out := (s.configure d am cm bpc).out ++ configureEvents s d am cm (lengthOf bpc) } := by
  have hevents : configureEvents (s.configure d am cm bpc) d am cm (lengthOf bpc) =
      configureEvents s d am cm (lengthOf bpc) := by
    rw [configureEvents, configureEvents, State.configure_params]
  have hregs : configuredRegs (s.configure d am cm bpc) d am cm (lengthOf bpc) = (s.configure d am cm bpc).regs d := by
    rw [configuredRegs, State.configure_params, State.regs_configure_eq_configuredRegs, frameLength_of_defined _ h,
      configuredRegs]
  rw [State.configure_of_defined _ d am cm h, hevents, hregs, State.setRegs_regs]

/-- Settles O25: `configure_configure_of_defined`, with the two events written out. -/
theorem configuringTwiceIsConfiguringOnce : Obligations.ConfiguringTwiceIsConfiguringOnce := by
  intro d am cm bpc s hlo hhi
  have hdefined : bpcDefined bpc = true := bpcDefined_of_mem hlo hhi
  refine ⟨_, _, _, _, exec_configureInstr .., exec_configureInstr .., ?_,
    s.configure_configure_of_defined d am cm hdefined, ?_⟩
  · rw [State.configure_of_defined s d am cm hdefined, configureEvents]
  · rw [State.regs_configure_same]

end Sys2Proof.Machine

/-! PROOFS. The statements about the enable gate and callback registration (41_gate_and_registration.md R130 to R133). Both
commands complete in every state with one register written; `exec_setEn` carries a forced enable through a `RET`. -/

namespace Sys2Proof.Machine

/-! ## The two commands complete in every state (R130, R132) -/

theorem exec_seten_eq_next (d : Dir) (b : Bool) (s : State) : exec (.seten d b) s = .next (s.setEn d b) := rfl

theorem exec_setcb_eq_next (d : Dir) (h : Handle) (s : State) : exec (.setcb d h) s = .next (s.setCb d h) := rfl

/-- Settles O13: `setEn` of each direction, written out, and the two example words of R130. -/
theorem setenWritesOneEnable : Obligations.SetenWritesOneEnable :=
  ⟨exec_seten_eq_next .tx, exec_seten_eq_next .rx, by decide, by decide⟩

/-- Settles O14: `setCb` of each direction, written out, and the two example words of R132. -/
theorem setcbRegistersOneHandle : Obligations.SetcbRegistersOneHandle :=
  ⟨exec_setcb_eq_next .tx, exec_setcb_eq_next .rx, by decide, by decide⟩

/-! ## Repeating an enable (R131 (a)) -/

/-- The enable is a level: the last write of a direction stands. -/
@[simp] theorem State.setEn_setEn_same (s : State) (d : Dir) (v b : Bool) :
    (s.setEn d v).setEn d b = s.setEn d b := by
  cases d <;> rfl

/-- Settles O15: the second write of `EN` overwrites the first. -/
theorem enablingTwiceIsEnablingOnce : Obligations.EnablingTwiceIsEnablingOnce := by
  intro d b s
  refine ⟨s.setEn d b, exec_seten_eq_next d b s, ?_⟩
  rw [exec_seten_eq_next, State.setEn_setEn_same]

/-! ## An enable written inside a service (R131 (d), R181) -/

/-- In a call phase there is a call to return from, so `RET` completes (R153). -/
theorem exec_ret_completes {s : State} (h : s.svc ≠ .idle) : ∃ t, exec .ret s = .next t := by
  simp only [exec, execRet, State.returnFromCallback]
  cases hs : s.svc with
  | idle => exact absurd hs h
  | txCall => exact ⟨s.serviceRx, rfl⟩
  | rxCall => exact ⟨s.endService, rfl⟩

/-- Settles O35: `RET` does not read `EN`, so after the `SETEN` it leads to the same state but for the forced enable. -/
theorem disableDoesNotCutAService : Obligations.DisableDoesNotCutAService := by
  intro s d b hsvc
  obtain ⟨t, ht⟩ := exec_ret_completes hsvc
  have hforced : exec .ret (s.setEn d b) = .next (t.setEn d b) := by
    rw [exec_setEn (i := .ret) s d b nofun, ht, mapNext_next]
  exact ⟨s.setEn d b, t.setEn d b, t, exec_seten_eq_next d b s, hforced, ht, t.setEn_out d b, t.setEn_svc d b⟩

end Sys2Proof.Machine

/-! PROOFS. The statements about the two data pass-throughs (42_data_io.md R140, R141). `WRSMP` appends one write of its
word; `RDSMP` appends one read and the response, and `rxDataRead_cases` says where the word comes from. -/

namespace Sys2Proof.Machine

/-! ## The two commands complete in every state -/

theorem exec_wrsmp_eq_next (w : Word) (s : State) : exec (.wrsmp w) s = .next (s.txDataWrite w) := rfl

theorem exec_rdsmp_eq_next (s : State) : exec .rdsmp s = .next (s.rxDataRead.respond s.rxWord) := rfl

/-- Settles O17: `txDataWrite` appends the one event, and the example word of R140. -/
theorem wrsmpForwardsTheWord : Obligations.WrsmpForwardsTheWord :=
  ⟨exec_wrsmp_eq_next, by decide⟩

/-! ## The word a read responds with (R141) -/

/-- The frame engine's next answer is consumed and is the response. -/
theorem exec_rdsmp_of_answer {s : State} {w : Word} {ws : List Word} (h : s.rxAnswers = w :: ws) :
    exec .rdsmp s = .next { s with rxAnswers := ws, out := s.out ++ [.rxDataRead, .respond w] } := by
  obtain ⟨w', ws', hanswers, hword, hread⟩ | ⟨hnone, -⟩ := s.rxDataRead_cases
  · obtain ⟨rfl, rfl⟩ := List.cons.inj (h.symm.trans hanswers)
    rw [exec_rdsmp_eq_next, hword, hread]
    simp [State.respond, State.emit]
  · cases h.symm.trans hnone

/-- Without an answer the response is the drawn word, and the draw is counted. -/
theorem exec_rdsmp_of_no_answer {s : State} (h : s.rxAnswers = []) :
    exec .rdsmp s = .next { s with draws := s.draws + 1, out := s.out ++ [.rxDataRead, .respond s.rxWord] } := by
  obtain ⟨_, _, hanswers, -, -⟩ | ⟨-, hread⟩ := s.rxDataRead_cases
  · cases h.symm.trans hanswers
  · rw [exec_rdsmp_eq_next, hread]
    simp [State.respond, State.emit]

/-- Settles O18: the response with an answer given and with none, and the example word of R141. -/
theorem rdsmpRespondsWithTheWordRead : Obligations.RdsmpRespondsWithTheWordRead :=
  ⟨fun _ _ _ => exec_rdsmp_of_answer, fun s h => ⟨s.rxWord, exec_rdsmp_of_no_answer h⟩, by decide⟩

end Sys2Proof.Machine

/-! PROOFS. The statements about the classifier and the dispatcher (43_service.md R150 to R162). One equation per outcome of
a service step: the transmit call, the receive call, the end of the service. What an `IRQ` and a `RET` do is read off these,
and that a callback runs only for a ready bit is their common invariant. -/

namespace Sys2Proof.Machine

open Sys2Proof.Safety

/-! ## The classifier (R150) -/

/-- The channel a ready direction's sync bit marks. -/
def channelOfSync (sync : Bool) : Channel := if sync then .ch1 else .ch2

section Classify

variable {p : Params} {st : Status} {d : Dir}

theorem classify_of_ready (h : readyBit p st d = true) : classify p st d = some (channelOfSync (syncBit p st d)) := by
  rw [classify, if_pos h, channelOfSync, apply_ite some]

theorem classify_eq_none_iff : classify p st d = none ↔ readyBit p st d = false := by
  rw [← classify_isSome, Option.isSome_eq_false_iff, Option.isNone_iff_eq_none]

theorem readyBit_of_classify {ch : Channel} (h : classify p st d = some ch) : readyBit p st d = true := by
  rw [← classify_isSome, h, Option.isSome_some]

end Classify

/-- Settles O26: the ready and the sync bit of each direction, by name. -/
theorem classifyByReadyAndSyncBits : Obligations.ClassifyByReadyAndSyncBits := by
  have hready (p : Params) (st : Status) (d : Dir) (sync : Bool) (hr : readyBit p st d = true)
      (hs : syncBit p st d = sync) : classify p st d = some (channelOfSync sync) := hs ▸ classify_of_ready hr
  refine ⟨fun p st => ⟨?_, ?_, ?_, ?_, ?_, ?_⟩, rfl, rfl⟩
  · exact (classify_eq_none_iff (d := .tx)).mpr
  · exact hready p st .tx true
  · exact hready p st .tx false
  · exact (classify_eq_none_iff (d := .rx)).mpr
  · exact hready p st .rx true
  · exact hready p st .rx false

/-! ## Ready events in normal operation (R160) -/

theorem alternating_channelOfSync_succ (sync : Bool) (n : Nat) :
    alternating (channelOfSync sync) (n + 1) = some (channelOfSync sync) :: alternating (channelOfSync (!sync)) n := by
  cases sync <;> rfl

/-- The pattern may begin with either slot; the classifications begin with that slot's channel. -/
theorem map_classify_of_stereoPattern (p : Params) (d : Dir) (sts : List Status) (sync : Bool)
    (h : stereoPattern p d sync sts = true) :
    sts.map (fun st => classify p st d) = alternating (channelOfSync sync) sts.length := by
  induction sts generalizing sync with
  | nil => rfl
  | cons st rest ih =>
    rw [stereoPattern, Bool.and_eq_true, Bool.and_eq_true, beq_iff_eq] at h
    obtain ⟨⟨hready, hsync⟩, hrest⟩ := h
    rw [List.map_cons, List.length_cons, alternating_channelOfSync_succ, classify_of_ready hready, hsync, ih _ hrest]

theorem map_classify_of_monoPattern (p : Params) (d : Dir) (sts : List Status) (h : monoPattern p d sts = true) :
    sts.map (fun st => classify p st d) = List.replicate sts.length (some .ch1) := by
  rw [monoPattern, List.all_eq_true] at h
  refine List.map_eq_replicate_iff.mpr fun st hst => ?_
  obtain ⟨hready, hsync⟩ := Bool.and_eq_true_iff.mp (h st hst)
  rw [classify_of_ready hready, hsync]
  rfl

/-- Settles O50: the stereo pattern that begins with channel-1's slot, and the mono pattern. -/
theorem normalSequencesClassifyByPeriod : Obligations.NormalSequencesClassifyByPeriod :=
  ⟨fun p d sts => map_classify_of_stereoPattern p d sts true, map_classify_of_monoPattern⟩

/-! ## The call of one service step (R151, R154, R155) -/

theorem State.pendingCall_eq_some {s : State} {d : Dir} {ch : Channel} (hclass : classify s.params s.slatch d = some ch)
    (hcb : (s.regs d).cb ≠ Config.nullHandle) : s.pendingCall d = some ((s.regs d).cb, ch) := by
  simp [State.pendingCall, hclass, hcb]

theorem State.pendingCall_eq_none {s : State} {d : Dir}
    (h : classify s.params s.slatch d = none ∨ (s.regs d).cb = Config.nullHandle) : s.pendingCall d = none := by
  refine Option.eq_none_iff_forall_not_mem.mpr fun ⟨hd, ch⟩ hc => ?_
  obtain ⟨rfl, hcb, hclass⟩ := State.pendingCall_spec hc
  exact h.elim (fun hnone => nomatch hnone.symm.trans hclass) hcb

theorem State.serviceRx_of_pendingCall {s : State} {h : Handle} {ch : Channel} (hc : s.pendingCall .rx = some (h, ch)) :
    s.serviceRx = s.call .rx h ch := by
  simp [State.serviceRx, hc]

theorem State.serviceRx_of_no_pendingCall {s : State} (hc : s.pendingCall .rx = none) : s.serviceRx = s.endService := by
  simp [State.serviceRx, hc]

theorem State.serviceTx_of_pendingCall {s : State} {h : Handle} {ch : Channel} (hc : s.pendingCall .tx = some (h, ch)) :
    s.serviceTx = s.call .tx h ch := by
  simp [State.serviceTx, hc]

theorem State.serviceTx_of_no_pendingCall {s : State} (hc : s.pendingCall .tx = none) : s.serviceTx = s.serviceRx := by
  simp [State.serviceTx, hc]

/-! ## What `IRQ` and `RET` run in each phase (R152, R153, R177, R180) -/

theorem exec_irq_of_idle {s : State} (hs : s.svc = .idle) (st : Status) :
    exec (.irq st) s = .next (s.enterService st) := by
  simp [exec, execIrq, hs]

theorem exec_irq_of_busy {s : State} (hs : s.svc ≠ .idle) (st : Status) :
    exec (.irq st) s = .next (s.holdBack (.irq st)) := by
  cases hsvc : s.svc with
  | idle => exact absurd hsvc hs
  | txCall | rxCall => simp [exec, execIrq, hsvc]

theorem exec_ret_of_idle {s : State} (hs : s.svc = .idle) : exec .ret s = .refused .retWhileIdle := by
  simp [exec, execRet, State.returnFromCallback, hs]

theorem exec_ret_of_txCall {s : State} (hs : s.svc = .txCall) : exec .ret s = .next s.serviceRx := by
  simp [exec, execRet, State.returnFromCallback, hs]

theorem exec_ret_of_rxCall {s : State} (hs : s.svc = .rxCall) : exec .ret s = .next { s with svc := .idle } := by
  simp [exec, execRet, State.returnFromCallback, hs, State.endService]

/-! ## The outcomes of an accepted `IRQ` -/

section Irq

variable {s : State} {st : Status} {ch : Channel}

theorem exec_irq_calls_tx (hs : s.svc = .idle) (hclass : classify s.params st .tx = some ch) (hcb : s.tx.cb ≠ 0#32) :
    exec (.irq st) s = .next { s with
      slatch := st, svc := .txCall, out := s.out ++ [.statusRead, .call .tx s.tx.cb ch] } := by
  have hcall : (s.latchStatus st).pendingCall .tx = some (s.tx.cb, ch) := State.pendingCall_eq_some hclass hcb
  rw [exec_irq_of_idle hs, State.enterService, State.serviceTx_of_pendingCall hcall]
  simp [State.call, State.latchStatus, State.emit, callPhase]

/-- With no transmit call to make, the service is the receive step on the latched word. -/
theorem exec_irq_without_tx_call (hs : s.svc = .idle) (htx : classify s.params st .tx = none ∨ s.tx.cb = 0#32) :
    exec (.irq st) s = .next (s.latchStatus st).serviceRx := by
  have hcall : (s.latchStatus st).pendingCall .tx = none := State.pendingCall_eq_none htx
  rw [exec_irq_of_idle hs, State.enterService, State.serviceTx_of_no_pendingCall hcall]

theorem exec_irq_calls_rx (hs : s.svc = .idle) (htx : classify s.params st .tx = none ∨ s.tx.cb = 0#32)
    (hclass : classify s.params st .rx = some ch) (hcb : s.rx.cb ≠ 0#32) :
    exec (.irq st) s = .next { s with
      slatch := st, svc := .rxCall, out := s.out ++ [.statusRead, .call .rx s.rx.cb ch] } := by
  have hcall : (s.latchStatus st).pendingCall .rx = some (s.rx.cb, ch) := State.pendingCall_eq_some hclass hcb
  rw [exec_irq_without_tx_call hs htx, State.serviceRx_of_pendingCall hcall]
  simp [State.call, State.latchStatus, State.emit, callPhase]

theorem exec_irq_calls_none (hs : s.svc = .idle) (htx : classify s.params st .tx = none ∨ s.tx.cb = 0#32)
    (hrx : classify s.params st .rx = none ∨ s.rx.cb = 0#32) :
    exec (.irq st) s = .next { s with slatch := st, out := s.out ++ [.statusRead] } := by
  have hcall : (s.latchStatus st).pendingCall .rx = none := State.pendingCall_eq_none hrx
  rw [exec_irq_without_tx_call hs htx, State.serviceRx_of_no_pendingCall hcall]
  simp [State.endService, State.latchStatus, State.emit, hs]

end Irq

/-! ## The outcomes of the `RET` of a transmit callback -/

section Ret

variable {s : State} {ch : Channel}

theorem exec_ret_calls_rx (hs : s.svc = .txCall) (hclass : classify s.params s.slatch .rx = some ch)
    (hcb : s.rx.cb ≠ 0#32) :
    exec .ret s = .next { s with svc := .rxCall, out := s.out ++ [.call .rx s.rx.cb ch] } := by
  rw [exec_ret_of_txCall hs, State.serviceRx_of_pendingCall (State.pendingCall_eq_some hclass hcb)]
  rfl

theorem exec_ret_calls_none (hs : s.svc = .txCall)
    (hrx : classify s.params s.slatch .rx = none ∨ s.rx.cb = 0#32) :
    exec .ret s = .next { s with svc := .idle } := by
  rw [exec_ret_of_txCall hs, State.serviceRx_of_no_pendingCall (State.pendingCall_eq_none hrx), State.endService]

end Ret

/-! ## The invariant of a service (R39, R154, R155) -/

theorem serviceGrounded_of_idle {s : State} (hs : s.svc = .idle) : ServiceGrounded s := by
  simp [ServiceGrounded, hs]

theorem serviceGrounded_congr {s t : State} (hp : t.params = s.params) (hl : t.slatch = s.slatch) (hs : t.svc = s.svc) :
    ServiceGrounded t ↔ ServiceGrounded s := by
  simp only [ServiceGrounded, hp, hl, hs]

/-- A pending call has its direction's ready bit set, and the call's phase is that direction's. -/
theorem State.serviceGrounded_call {s : State} {d : Dir} {h : Handle} {ch : Channel}
    (hc : s.pendingCall d = some (h, ch)) : ServiceGrounded (s.call d h ch) := by
  obtain ⟨-, -, hclass⟩ := State.pendingCall_spec hc
  have hready : readyBit s.params s.slatch d = true := readyBit_of_classify hclass
  cases d with
  | tx => exact ⟨fun _ => hready, nofun⟩
  | rx => exact ⟨nofun, fun _ => hready⟩

theorem State.serviceGrounded_serviceRx (s : State) : ServiceGrounded s.serviceRx := by
  obtain ⟨h, ch, hc, hrx⟩ | ⟨-, hrx⟩ := s.serviceRx_cases <;> rw [hrx]
  · exact State.serviceGrounded_call hc
  · exact serviceGrounded_of_idle rfl

theorem State.serviceGrounded_serviceTx (s : State) : ServiceGrounded s.serviceTx := by
  obtain ⟨h, ch, hc, htx⟩ | ⟨-, htx⟩ := s.serviceTx_cases <;> rw [htx]
  · exact State.serviceGrounded_call hc
  · exact s.serviceGrounded_serviceRx

theorem exec_keeps_serviceGrounded {i : Instr} {s t : State} (hg : ServiceGrounded s) (h : exec i s = .next t) :
    ServiceGrounded t := by
  cases i with
  | irq st =>
    obtain ⟨-, rfl⟩ | ⟨-, rfl⟩ := exec_next h
    · exact State.serviceGrounded_serviceTx _
    · exact hg
  | ret =>
    obtain ⟨-, rfl⟩ | ⟨-, rfl⟩ := exec_next h
    · exact s.serviceGrounded_serviceRx
    · exact serviceGrounded_of_idle rfl
  | _ =>
    obtain ⟨hl, -, hs, -⟩ := exec_frame_of_ne_irq h nofun
    exact (serviceGrounded_congr (exec_params h) hl (hs nofun)).mpr hg

/-- Settles O47: only a service step enters a call phase, and it does so for a pending call; the reset pin ends the
service. -/
theorem stepKeepsServiceGrounded : Obligations.StepKeepsServiceGrounded := by
  refine ⟨fun s t hg h => ?_, serviceGrounded_of_idle rfl⟩
  obtain ⟨-, rfl⟩ | ⟨left, -, rfl⟩ | ⟨ew, left, i, -, -, hexec⟩ := step_next h
  · exact hg
  · exact serviceGrounded_of_idle rfl
  · exact exec_keeps_serviceGrounded (s := { s with inbox := left }) hg hexec

/-! ## One service (R152 to R155, R157) -/

/-- Settles O27: the three outcomes of an accepted `IRQ`, the two of the receive step at `RET`, and an `IRQ` held back. -/
theorem irqServesTransmitThenReceive : Obligations.IrqServesTransmitThenReceive := by
  refine ⟨fun s st hs => ⟨fun ch => exec_irq_calls_tx hs, fun ch => exec_irq_calls_rx hs, exec_irq_calls_none hs⟩,
    fun s hs => ⟨fun ch => exec_ret_calls_rx hs, exec_ret_calls_none hs⟩,
    fun s st hs => ⟨_, exec_irq_of_busy hs st, rfl, rfl, rfl⟩, by decide, fun s hs hp htx _ => ?_⟩
  have hclass : classify s.params 0x401#32 .tx = some .ch1 := hp ▸ by decide
  rw [exec_irq_calls_tx hs hclass (htx ▸ by decide), htx]

/-- Settles O28: `RET` by phase; the example's status word has no receive-ready bit. -/
theorem retResumesOrEndsTheService : Obligations.RetResumesOrEndsTheService := by
  refine ⟨fun s hs => ⟨fun ch => exec_ret_calls_rx hs, exec_ret_calls_none hs⟩, fun s => exec_ret_of_rxCall,
    fun s => exec_ret_of_idle, by decide, fun s hs hp hl => exec_ret_calls_none hs (.inl ?_)⟩
  rw [hp, hl]
  decide

/-- Settles O33: the transmit call of the `IRQ`, the receive call of the first `RET`, and the end at the second. -/
theorem bothReadyCallsEachOnceTransmitFirst : Obligations.BothReadyCallsEachOnceTransmitFirst := by
  intro s st c1 c2 hs htx hrx hc1 hc2
  exact ⟨_, _, _, exec_irq_calls_tx hs hc1 htx, exec_ret_calls_rx rfl hc2 hrx, exec_ret_of_rxCall rfl,
    rfl, rfl, rfl, rfl, rfl, rfl⟩

/-! ## Callbacks: fetched at their step, skipped when null (R151, R158) -/

/-- Settles O36: the receive step at `RET` reads the handle that `SETCB` wrote. -/
theorem handleIsReadAtItsStep : Obligations.HandleIsReadAtItsStep := by
  intro s h ch hs hclass
  by_cases hnull : h = 0#32
  · exact ⟨_, _, exec_setcb_eq_next .rx h s, exec_ret_calls_none hs (.inr hnull), fun hne => absurd hnull hne,
      fun _ => ⟨rfl, rfl⟩⟩
  · exact ⟨_, _, exec_setcb_eq_next .rx h s, exec_ret_calls_rx hs hclass hnull, fun _ => ⟨rfl, rfl⟩,
      fun heq => absurd heq hnull⟩

/-- Every call a service step emits is of a registered direction. -/
theorem State.serviceTx_calls_registered (s : State) :
    ∃ calls, s.serviceTx.out = s.out ++ calls ∧
      ∀ d h ch, .call d h ch ∈ calls → (s.regs d).cb ≠ Config.nullHandle := by
  have hcall (d : Dir) (h : Handle) (ch : Channel) (hc : s.pendingCall d = some (h, ch)) :
      ∀ e k c, OutEvent.call e k c ∈ [.call d h ch] → (s.regs e).cb ≠ Config.nullHandle := by
    intro e k c hmem
    obtain ⟨rfl, rfl, rfl⟩ := OutEvent.call.inj (List.mem_singleton.mp hmem)
    obtain ⟨rfl, hne, -⟩ := State.pendingCall_spec hc
    exact hne
  obtain ⟨h, ch, hc, htx⟩ | ⟨-, htx⟩ := s.serviceTx_cases
  · exact ⟨_, htx ▸ s.call_out .tx h ch, hcall .tx h ch hc⟩
  obtain ⟨h, ch, hc, hrx⟩ | ⟨-, hrx⟩ := s.serviceRx_cases
  · exact ⟨_, htx ▸ hrx ▸ s.call_out .rx h ch, hcall .rx h ch hc⟩
  · exact ⟨[], by rw [htx, hrx]; simp, nofun⟩

/-- Settles O34: each registration case is an outcome of `IRQ` or of `RET`, and no call is of a null handle. -/
theorem unregisteredEventIsSkipped : Obligations.UnregisteredEventIsSkipped := by
  refine ⟨fun s st hs htx hrx => exec_irq_calls_none hs (.inr htx) (.inr hrx),
    fun s st hs htx => ⟨fun ch => exec_irq_calls_rx hs (.inr htx),
      fun hnone => exec_irq_calls_none hs (.inr htx) (.inl hnone)⟩,
    fun s st hs hrx => ⟨fun ch hclass hcb =>
        ⟨_, exec_irq_calls_tx hs hclass hcb, rfl, exec_ret_calls_none rfl (.inr hrx)⟩,
      fun hnone => exec_irq_calls_none hs (.inl hnone) (.inr hrx)⟩,
    fun s hs hrx => exec_ret_calls_none hs (.inr hrx),
    fun s st d hs hcb => ?_⟩
  obtain ⟨calls, hout, hregistered⟩ := (s.latchStatus st).serviceTx_calls_registered
  refine ⟨_, calls, exec_irq_of_idle hs st, hout, fun h ch hmem => hregistered d h ch hmem ?_⟩
  cases d <;> exact hcb

/-! ## What a service consults (R156) -/

/-- The two states agree on all that a service reads or writes. -/
structure AgreeOnService (s s' : State) : Prop where
  svc_eq : s'.svc = s.svc
  slatch_eq : s'.slatch = s.slatch
  cb_eq : ∀ d, (s'.regs d).cb = (s.regs d).cb
  params_eq : s'.params = s.params
  out_eq : s'.out = s.out

namespace AgreeOnService

variable {s s' : State}

theorem pendingCall_eq (ha : AgreeOnService s s') (d : Dir) : s'.pendingCall d = s.pendingCall d :=
  State.pendingCall_congr ha.params_eq ha.slatch_eq (ha.cb_eq d)

theorem call (ha : AgreeOnService s s') (d : Dir) (h : Handle) (ch : Channel) :
    AgreeOnService (s.call d h ch) (s'.call d h ch) :=
  { ha with svc_eq := rfl, out_eq := by simp [ha.out_eq] }

theorem endService (ha : AgreeOnService s s') : AgreeOnService s.endService s'.endService :=
  { ha with svc_eq := rfl }

theorem latchStatus (ha : AgreeOnService s s') (st : Status) : AgreeOnService (s.latchStatus st) (s'.latchStatus st) :=
  { ha with slatch_eq := rfl, out_eq := by simp [ha.out_eq] }

theorem serviceRx (ha : AgreeOnService s s') : AgreeOnService s.serviceRx s'.serviceRx := by
  rw [State.serviceRx, State.serviceRx, ha.pendingCall_eq]
  split
  · exact ha.call ..
  · exact ha.endService

theorem serviceTx (ha : AgreeOnService s s') : AgreeOnService s.serviceTx s'.serviceTx := by
  rw [State.serviceTx, State.serviceTx, ha.pendingCall_eq]
  split
  · exact ha.call ..
  · exact ha.serviceRx

theorem exec_irq (ha : AgreeOnService s s') (st : Status) :
    ∃ t t', exec (.irq st) s = .next t ∧ exec (.irq st) s' = .next t' ∧ AgreeOnService t t' := by
  by_cases hs : s.svc = .idle
  · exact ⟨_, _, exec_irq_of_idle hs st, exec_irq_of_idle (ha.svc_eq.trans hs) st, (ha.latchStatus st).serviceTx⟩
  · exact ⟨_, _, exec_irq_of_busy hs st, exec_irq_of_busy (ha.svc_eq ▸ hs) st, { ha with }⟩

theorem exec_ret (ha : AgreeOnService s s') :
    (∃ t t', exec .ret s = .next t ∧ exec .ret s' = .next t' ∧ AgreeOnService t t') ∨
    ∃ r, exec .ret s = .refused r ∧ exec .ret s' = .refused r := by
  have hsvc := ha.svc_eq
  cases hs : s.svc with
  | idle => exact .inr ⟨_, exec_ret_of_idle hs, exec_ret_of_idle (hsvc.trans hs)⟩
  | txCall => exact .inl ⟨_, _, exec_ret_of_txCall hs, exec_ret_of_txCall (hsvc.trans hs), ha.serviceRx⟩
  | rxCall => exact .inl ⟨_, _, exec_ret_of_rxCall hs, exec_ret_of_rxCall (hsvc.trans hs), ha.endService⟩

end AgreeOnService

/-- Settles O38: `IRQ` and `RET` take agreeing states to agreeing states, or refuse both. -/
theorem serviceConsultsOnlyLatchAndCallbacks : Obligations.ServiceConsultsOnlyLatchAndCallbacks := by
  intro i s s' hi hsvc hslatch htx hrx hparams hout
  have ha : AgreeOnService s s' := ⟨hsvc, hslatch, fun d => by cases d <;> assumption, hparams, hout⟩
  have hexec : (∃ t t', exec i s = .next t ∧ exec i s' = .next t' ∧ AgreeOnService t t') ∨
      ∃ r, exec i s = .refused r ∧ exec i s' = .refused r := by
    obtain rfl | ⟨st, rfl⟩ := hi
    · exact ha.exec_ret
    · exact .inl (ha.exec_irq st)
  obtain ⟨t, t', ht, ht', hagree⟩ | ⟨r, hr, hr'⟩ := hexec
  · refine ⟨fun u hu => ?_, fun r hr => nomatch ht.symm.trans hr⟩
    obtain rfl := Host.Outcome.next.inj (ht.symm.trans hu)
    exact ⟨t', ht', hagree.out_eq, hagree.svc_eq, hagree.slatch_eq⟩
  · refine ⟨fun u hu => (nomatch hr.symm.trans hu), fun q hq => ?_⟩
    rw [hr', ← hr, hq]

/-! ## A callback that never returns (R162) -/

theorem nextInput_eq_none {phase : Svc} {xs : List Input} (h : ∀ x ∈ xs, ¬ accepts phase x = true) :
    nextInput phase xs = none := by
  refine Option.eq_none_iff_forall_not_mem.mpr fun ⟨x, left⟩ hx => ?_
  obtain ⟨before, after, rfl, -, -, hacc⟩ := nextInput_eq_some_iff.mp hx
  exact h x (by simp) hacc

/-- Settles O32: every input that waits is an `IRQ`, so the step takes none of them. -/
theorem callbackThatNeverReturnsIsStuck : Obligations.CallbackThatNeverReturnsIsStuck := by
  intro s sts hs hinbox
  refine step_of_nextInput_none (nextInput_eq_none fun x hx => ?_)
  rw [hinbox] at hx
  obtain ⟨st, -, rfl⟩ := List.mem_map.mp hx
  exact (not_accepts_iff ..).mpr ⟨hs, _, st, rfl, decodeOfEncodeIsTheInstruction _⟩

end Sys2Proof.Machine

/-! PROOFS. The statements about services and the other commands (60_exceptions.md R170 to R181). `RET` with no call to
return from is the one instruction that stops, an `IRQ` during a service is held back, and no host command reads or writes `SVC`. -/

namespace Sys2Proof.Machine

/-! ## The instruction that stops and the one that waits (R177, R180) -/

/-- Settles O29: the phase `IDLE` of `returnFromCallback`. -/
theorem retWithoutACallIsRefused : Obligations.RetWithoutACallIsRefused :=
  fun _ => exec_ret_of_idle

/-- Settles O30: the state `holdBack` gives, written out. -/
theorem irqDuringAServiceWaits : Obligations.IrqDuringAServiceWaits :=
  fun _ st hs => exec_irq_of_busy hs st

/-- The block raises no fault and checks no operand (R170, R18). -/
theorem exec_completes {i : Instr} {s : State} (h : ¬(i = .ret ∧ s.svc = .idle)) : ∃ t, exec i s = .next t := by
  cases i with
  | irq st =>
    by_cases hs : s.svc = .idle
    · exact ⟨_, exec_irq_of_idle hs st⟩
    · exact ⟨_, exec_irq_of_busy hs st⟩
  | ret => exact exec_ret_completes fun hs => h ⟨rfl, hs⟩
  | _ => exact ⟨_, rfl⟩

/-- Settles O43: an instruction that is refused does not complete, so by `exec_completes` it is a `RET` in `IDLE`. -/
theorem onlyRetWithoutACallStops : Obligations.OnlyRetWithoutACallStops := by
  refine fun i s => ⟨exec_completes, fun st hi hs => ?_, fun r hr => ?_⟩
  · subst hi
    exact exec_irq_of_busy hs st
  · have hstop : i = .ret ∧ s.svc = .idle := by
      by_contra hne
      obtain ⟨t, ht⟩ := exec_completes hne
      exact nomatch ht.symm.trans hr
    obtain ⟨rfl, hs⟩ := hstop
    exact ⟨rfl, hs, Host.Outcome.refused.inj (hr.symm.trans (exec_ret_of_idle hs))⟩

/-! ## No nesting (R62, R177) -/

/-- Settles O31: an `IRQ` is taken in main context only, and no other instruction latches or reads the status word. -/
theorem noSecondServiceBegins : Obligations.NoSecondServiceBegins := by
  intro s t hs hpin h
  obtain ⟨-, rfl⟩ | ⟨left, hn, -⟩ | ⟨ew, left, i, hn, hd, hexec⟩ := step_next h
  · exact ⟨rfl, rfl⟩
  · exact absurd hn (hpin left)
  · have hirq : ∀ st, i ≠ .irq st := fun st hi => hs (idle_of_nextInput_irq hn (hi ▸ hd))
    obtain ⟨hslatch, -⟩ := exec_frame_of_ne_irq hexec hirq
    exact ⟨hslatch, exec_statusRead_of_ne_irq (s := { s with inbox := left }) hexec hirq⟩

/-! ## Host commands in every phase (R42, R179) -/

/-- The same state in another phase. -/
def State.inPhase (s : State) (phase : Svc) : State := { s with svc := phase }

section InPhase

variable (s : State) (phase : Svc)

theorem State.configure_inPhase (d : Dir) (am : AudioMode) (cm : ClockMode) (bpc : BitsPerChannel) :
    (s.inPhase phase).configure d am cm bpc = (s.configure d am cm bpc).inPhase phase := by
  unfold State.configure State.drawDatlen
  split <;> cases d <;> rfl

theorem State.setEn_inPhase (d : Dir) (b : Bool) : (s.inPhase phase).setEn d b = (s.setEn d b).inPhase phase := by
  cases d <;> rfl

theorem State.setCb_inPhase (d : Dir) (h : Handle) : (s.inPhase phase).setCb d h = (s.setCb d h).inPhase phase := by
  cases d <;> rfl

theorem State.rxDataRead_inPhase : (s.inPhase phase).rxDataRead = s.rxDataRead.inPhase phase := by
  simp only [State.rxDataRead, State.inPhase]
  split <;> rfl

/-- A host command neither reads nor writes the phase. -/
theorem exec_inPhase {i : Instr} (hirq : ∀ st, i ≠ .irq st) (hret : i ≠ .ret) :
    exec i (s.inPhase phase) = mapNext (·.inPhase phase) (exec i s) := by
  cases i with
  | cfgtx am cm bpc => exact congrArg _ (s.configure_inPhase ..)
  | cfgrx am cm bpc => exact congrArg _ (s.configure_inPhase ..)
  | seten d b => exact congrArg _ (s.setEn_inPhase ..)
  | setcb d h => exact congrArg _ (s.setCb_inPhase ..)
  | wrsmp w => rfl
  | rdsmp => exact congrArg (fun t : State => Host.Outcome.next (t.respond s.rxWord)) (s.rxDataRead_inPhase phase)
  | irq st => exact absurd rfl (hirq st)
  | ret => exact absurd rfl hret

end InPhase

/-- Settles O37: the command completes and keeps `SVC`, and by `exec_inPhase` it does the same in any phase. -/
theorem hostCommandsIgnoreThePhase : Obligations.HostCommandsIgnoreThePhase := by
  intro i s phase hirq hret
  obtain ⟨t, ht⟩ := exec_completes (s := s) fun hstop : i = .ret ∧ _ => hret hstop.left
  obtain ⟨-, -, hsvc, -⟩ := exec_frame_of_ne_irq ht hirq
  have hphase : exec i (s.inPhase phase) = .next (t.inPhase phase) := by
    rw [exec_inPhase s phase hirq hret, ht, mapNext_next]
  exact ⟨t, ht, hsvc hret, hphase⟩

end Sys2Proof.Machine

/-! PROOFS. The statements about reset and the host's obligations (70_reset_and_hazards.md R190 to R205). What the reset pin
and a configure command may do to a direction's flags is read off `assertReset` and `exec_regs`; a registered direction's
call is the service's first, or the receive call behind a transmit call. -/

namespace Sys2Proof.Machine

open Sys2Proof.Safety

/-! ## The reset pin (R190, R191) -/

@[simp] theorem State.regs_assertReset (s : State) (d : Dir) : s.assertReset.regs d = DirRegs.reset := by
  cases d <;> rfl

theorem step_of_resetPin {s : State} {left : List Input} (h : nextInput s.svc s.inbox = some (.resetPin, left)) :
    step s = .next ({ s with inbox := left } : State).assertReset :=
  step_of_nextInput_some h

/-- Settles O10: both directions of `assertReset` are `DirRegs.reset`. -/
theorem resetPinResetsEveryPhase : Obligations.ResetPinResetsEveryPhase := by
  intro s left h
  refine ⟨_, step_of_resetPin h, fun d => ?_, rfl, rfl, rfl⟩
  rw [State.regs_assertReset]
  exact ⟨rfl, rfl, rfl, rfl⟩

/-- A `RET` that is first in the inbox in main context is refused (R180). -/
theorem step_ret_of_idle {s : State} {rest : List Input} (hs : s.svc = .idle)
    (hinbox : s.inbox = .word (encode .ret) :: rest) : step s = .refused .retWhileIdle := by
  have hnext : nextInput s.svc s.inbox = some (.word (encode .ret), rest) := by
    rw [hinbox]
    exact nextInput_cons_of_accepts rest ((accepts_iff ..).mpr (.inl hs))
  have hrun : runInput (.word (encode .ret)) { s with inbox := rest } = exec .ret { s with inbox := rest } :=
    runWord_of_instr (decodeOfEncodeIsTheInstruction .ret) _
  rw [step_of_nextInput_some hnext, hrun]
  exact exec_ret_of_idle hs

/-- Settles O11: the pin is accepted in every phase, and the `RET` behind it finds `SVC = IDLE`. -/
theorem resetAbandonsARunningService : Obligations.ResetAbandonsARunningService := fun _ _ _ =>
  ⟨_, step_of_resetPin (nextInput_cons_of_accepts _ rfl), rfl, rfl, step_ret_of_idle rfl rfl⟩

/-- Settles O12: of the commands that write a direction's registers (`exec_regs`) only the configure command writes `IEN`
or `CFGV`, and it sets both. -/
theorem onlyResetUnconfigures : Obligations.OnlyResetUnconfigures := by
  intro i s t d h
  obtain hr | ⟨am, cm, bpc, -, hr⟩ | ⟨b, -, hr⟩ | ⟨hd, -, hr⟩ := exec_regs h d <;> rw [hr]
  · exact ⟨id, id⟩
  · exact ⟨fun _ => rfl, fun _ => rfl⟩
  · exact ⟨id, id⟩
  · exact ⟨id, id⟩

/-! ## Registration before enabling (R197, R201) -/

theorem registeredBeforeEnabled_iff (s : State) :
    RegisteredBeforeEnabled s ↔ ∀ d, (s.regs d).ien = true → (s.regs d).cb ≠ Config.nullHandle :=
  ⟨fun ⟨htx, hrx⟩ d => by cases d <;> assumption, fun h => ⟨h .tx, h .rx⟩⟩

theorem keepsRegistered_configureInstr_iff (s : State) (d : Dir) (am : AudioMode) (cm : ClockMode)
    (bpc : BitsPerChannel) :
    keepsRegistered (configureInstr d am cm bpc) s = true ↔ (s.regs d).cb ≠ Config.nullHandle := by
  cases d <;> exact bne_iff_ne

theorem keepsRegistered_setcb_iff (s : State) (d : Dir) (h : Handle) :
    keepsRegistered (.setcb d h) s = true ↔ h ≠ Config.nullHandle ∨ ¬ (s.regs d).ien = true := by
  simp [keepsRegistered]

/-- Settles O48: a configure command needs the callback it finds, and `SETCB` writes the null handle only where `IEN` is
0. -/
theorem registrationDisciplineIsKept : Obligations.RegistrationDisciplineIsKept := by
  intro i s t hs hkeeps h
  rw [registeredBeforeEnabled_iff] at hs ⊢
  intro d
  obtain hr | ⟨am, cm, bpc, rfl, hr⟩ | ⟨b, -, hr⟩ | ⟨hd, rfl, hr⟩ := exec_regs h d <;> rw [hr]
  · exact hs d
  · exact fun _ => (keepsRegistered_configureInstr_iff s d am cm bpc).mp hkeeps
  · exact hs d
  · exact fun hien => ((keepsRegistered_setcb_iff s d hd).mp hkeeps).resolve_right (not_not_intro hien)

/-! ## The call a service makes first (R154, R155) -/

/-- Transmit is called first; receive is when there is no transmit call to make. -/
theorem exec_irq_calls_first {s : State} {st : Status} {d : Dir} {ch : Channel} (hs : s.svc = .idle)
    (hfirst : d = .rx → classify s.params st .tx = none ∨ s.tx.cb = 0#32) (hclass : classify s.params st d = some ch)
    (hcb : (s.regs d).cb ≠ 0#32) :
    exec (.irq st) s = .next { s with
      slatch := st, svc := callPhase d, out := s.out ++ [.statusRead, .call d (s.regs d).cb ch] } := by
  cases d with
  | tx => exact exec_irq_calls_tx hs hclass hcb
  | rx => exact exec_irq_calls_rx hs (hfirst rfl) hclass hcb

theorem requested_iff (s : State) (st : Status) :
    requested s st = true ↔ ∃ d, (s.regs d).ien = true ∧ readyBit s.params st d = true := by
  rw [requested, Bool.or_eq_true, Bool.and_eq_true, Bool.and_eq_true]
  constructor
  · rintro (h | h)
    · exact ⟨.tx, h⟩
    · exact ⟨.rx, h⟩
  · rintro ⟨d, h⟩
    cases d with
    | tx => exact .inl h
    | rx => exact .inr h

/-- Settles O49: a requested direction is registered and classifies, so its call is the service's first, or it is receive
and comes behind a transmit call. -/
theorem requestedEventOfRegisteredHostIsCalled : Obligations.RequestedEventOfRegisteredHostIsCalled := by
  refine ⟨fun s st d hreg hs hien hready => ?_, requested_iff⟩
  have hcb : (s.regs d).cb ≠ 0#32 := (registeredBeforeEnabled_iff s).mp hreg d hien
  have hclass := classify_of_ready hready
  by_cases hfirst : d = .rx → classify s.params st .tx = none ∨ s.tx.cb = 0#32
  · exact ⟨hcb, _, _, hclass, exec_irq_calls_first hs hfirst hclass hcb, .inl ⟨rfl, rfl⟩⟩
  · push Not at hfirst
    obtain ⟨rfl, hclassTx, hcbTx⟩ := hfirst
    obtain ⟨c, hc⟩ := Option.ne_none_iff_exists'.mp hclassTx
    exact ⟨hcb, _, _, hclass, exec_irq_calls_tx hs hc hcbTx,
      .inr ⟨rfl, c, _, hc, hcbTx, rfl, rfl, exec_ret_calls_rx rfl hclass hcb, rfl, rfl⟩⟩

/-! ## A `SETCB` that races with a service (R202) -/

/-- Settles O51: the `IRQ` calls the handle that it finds, which the `SETCB` has written or has yet to write. -/
theorem racingSetcbIsOldOrNew : Obligations.RacingSetcbIsOldOrNew := by
  intro s d h st ch hs hfirst hclass hnew hold
  have hregs : ((s.setCb d h).regs d).cb = h := by rw [State.regs_setCb_same]
  have hfirstAfter : d = .rx → classify (s.setCb d h).params st .tx = none ∨ (s.setCb d h).tx.cb = 0#32 := by
    rintro rfl
    exact hfirst rfl
  have hafter := exec_irq_calls_first (s := s.setCb d h) (by rw [State.setCb_svc, hs]) hfirstAfter
    (by rw [State.setCb_params, hclass]) (by rwa [hregs])
  refine ⟨⟨_, _, exec_setcb_eq_next d h s, hafter, ?_⟩,
    ⟨_, _, exec_irq_calls_first hs hfirst hclass hold, exec_setcb_eq_next d h _, State.setCb_out ..⟩⟩
  rw [hregs, State.setCb_out]

/-! ## Free values drawn (R64, R108) -/

@[simp] theorem State.serviceRx_draws (s : State) : s.serviceRx.draws = s.draws := by
  obtain ⟨phase, calls, ht, -⟩ := s.serviceRx_frame
  rw [ht]

@[simp] theorem State.enterService_draws (s : State) (st : Status) : (s.enterService st).draws = s.draws := by
  obtain ⟨phase, calls, ht, -⟩ := s.enterService_frame st
  rw [ht]

theorem State.configure_draws_of_defined (s : State) (d : Dir) (am : AudioMode) (cm : ClockMode) {bpc : BitsPerChannel}
    (h : bpcDefined bpc = true) : (s.configure d am cm bpc).draws = s.draws := by
  rw [State.configure_eq, State.drawDatlen_of_defined s h]

/-- Besides `RDSMP` only a configure command outside the defined range draws. -/
theorem exec_draws {i : Instr} {s t : State} (h : exec i s = .next t)
    (hbpc : ∀ d am cm bpc, i = configureInstr d am cm bpc → bpcDefined bpc = true) (hi : i ≠ .rdsmp) :
    t.draws = s.draws := by
  have ht := exec_next h
  cases i with
  | cfgtx am cm bpc => exact ht ▸ s.configure_draws_of_defined .tx am cm (hbpc .tx am cm bpc rfl)
  | cfgrx am cm bpc => exact ht ▸ s.configure_draws_of_defined .rx am cm (hbpc .rx am cm bpc rfl)
  | seten d b => exact ht ▸ s.setEn_draws d b
  | setcb d hd => exact ht ▸ s.setCb_draws d hd
  | wrsmp w => exact ht ▸ s.txDataWrite_draws w
  | rdsmp => exact absurd rfl hi
  | irq st =>
    obtain ⟨-, rfl⟩ | ⟨-, rfl⟩ := ht
    · exact s.enterService_draws st
    · rfl
  | ret =>
    obtain ⟨-, rfl⟩ | ⟨-, rfl⟩ := ht
    · exact s.serviceRx_draws
    · rfl

/-! ## What the host's obligations give (R108, R172, R180) -/

section HostKeeps

variable {s : State}

theorem bpcDefined_of_hostKeeps {d : Dir} {am : AudioMode} {cm : ClockMode} {bpc : BitsPerChannel}
    (h : hostKeeps (configureInstr d am cm bpc) s = true) : bpcDefined bpc = true := by
  cases d <;>
  · simp only [configureInstr, hostKeeps, Bool.and_eq_true] at h
    obtain ⟨⟨hbpc, -⟩, -⟩ := h
    exact hbpc

theorem idle_of_hostKeeps_irq {st : Status} (h : hostKeeps (.irq st) s = true) : s.svc = .idle := by
  rw [hostKeeps, Bool.and_eq_true, beq_iff_eq] at h
  exact h.left

theorem not_idle_of_hostKeeps_ret (h : hostKeeps .ret s = true) : s.svc ≠ .idle :=
  bne_iff_ne.mp h

end HostKeeps

/-- Settles O53: a kept `RET` has a call to return from, a kept `IRQ` arrives in main context, and a kept configure command
has its frame length. -/
theorem hostThatKeepsItsObligationsIsNeverStopped : Obligations.HostThatKeepsItsObligationsIsNeverStopped := by
  intro i s hkeeps
  have hstop : ¬(i = .ret ∧ s.svc = .idle) := by
    rintro ⟨rfl, hs⟩
    exact not_idle_of_hostKeeps_ret hkeeps hs
  obtain ⟨t, ht⟩ := exec_completes hstop
  refine ⟨t, ht, fun st hi => ?_, exec_draws ht fun d am cm bpc hi => bpcDefined_of_hostKeeps (hi ▸ hkeeps)⟩
  subst hi
  obtain ⟨-, rfl⟩ | ⟨hbusy, -⟩ := exec_next ht
  · exact (s.enterService_statusRead st).right
  · exact absurd (idle_of_hostKeeps_irq hkeeps) hbusy

end Sys2Proof.Machine
